-- ==== Sys2Proof/Word.lean ====
section
/-! DEFINITION. The bit-vector types of the block, by the widths the spec gives them (00_scope.md R12, R14;
30_encoding.md R80, R82, R83). Every value of the spec is an unsigned integer of a stated width. -/

namespace Sys2Proof

/-- A 32-bit command word (R82). -/
abbrev CmdWord := BitVec 32

/-- A 64-bit operand, register, table cell or response datum (R12: `DATA_W` = 64). -/
abbrev Data := BitVec 64

/-- An 8-bit opcode, `word[31:24]` (R82). -/
abbrev Opcode := BitVec 8

/-- An 8-bit register address, `word[23:16]` of format C (R83). -/
abbrev CsrAddr := BitVec 8

/-- A 3-bit column number, `word[18:16]` of format T (R83). -/
abbrev Col := BitVec 3

/-- An 8-bit row number, `word[15:8]` of format T (R83). -/
abbrev Row := BitVec 8

end Sys2Proof
end

