-- ==== Sys2Proof/Syntax.lean ====
section
/-! DEFINITION. The commands of the block: the raw pair the host presents and the twelve decoded instructions, one
constructor per row of spec/opcode_table.json (30_encoding.md R80, R84). "Instruction" and "command" mean the same
thing in the spec: one 32-bit word with its 64-bit operand, so every constructor carries the operand `opa`, also
where the meaning ignores it (R87). -/

namespace Sys2Proof

/-- A command as the host presents it: any word with any operand (R80). -/
structure Command where
  /-- the 32-bit command word -/
  word : CmdWord
  /-- the 64-bit operand -/
  opa : Data
deriving DecidableEq, Repr

/-- The twelve instructions of R84. -/
inductive Instr where
  /-- `CSRR csr` (R200) -/
  | csrr (csr : CsrAddr) (opa : Data)
  /-- `CSRW csr, opa` (R201) -/
  | csrw (csr : CsrAddr) (opa : Data)
  /-- `CLRERR` (R203) -/
  | clrerr (opa : Data)
  /-- `MULH opa` (R113) -/
  | mulh (opa : Data)
  /-- `FMIX32 opa` (R131) -/
  | fmix32 (opa : Data)
  /-- `FMIX64 opa` (R132) -/
  | fmix64 (opa : Data)
  /-- `TABH opa` (R176) -/
  | tabh (opa : Data)
  /-- `TABBEGIN` (R172) -/
  | tabbegin (opa : Data)
  /-- `TABW col, row, opa` (R173) -/
  | tabw (col : Col) (row : Row) (opa : Data)
  /-- `TABRD col, row` (R177) -/
  | tabrd (col : Col) (row : Row) (opa : Data)
  /-- `TABRAND` (R174) -/
  | tabrand (opa : Data)
  /-- `TABCOMMIT` (R175) -/
  | tabcommit (opa : Data)
deriving DecidableEq, Repr

end Sys2Proof
end

