-- ==== Sys2Proof/WellFormed.lean ====
section
/-! DEFINITION. Which command words are well formed: those that match a row of the opcode map by its match and mask
(30_encoding.md R84, R85, R86). A decoded `Instr` needs no check of its own: its fields have exactly the widths of
their encodings, so no ill-formed term of `Instr` can be written. -/

namespace Sys2Proof

/-- The three formats of R82. -/
inductive Format where
  /-- opcode only; `word[23:0]` zero -/
  | n
  /-- a register address in `word[23:16]`; `word[15:0]` zero -/
  | c
  /-- column in `word[18:16]`, row in `word[15:8]`; `word[23:19]` and `word[7:0]` zero -/
  | t
deriving DecidableEq, Repr

/-- The mask of a format: the bits that must equal the row's match (R84). -/
def Format.mask : Format → CmdWord
  | .n => 0xFFFFFFFF#32
  | .c => 0xFF00FFFF#32
  | .t => 0xFFF800FF#32

/-- One row of the opcode map (R84). -/
structure TableRow where
  /-- the mnemonic, as spec/opcode_table.json spells it -/
  mnemonic : String
  /-- the format, which gives the mask -/
  format : Format
  /-- the match: the opcode in bits 31:24 over zeros -/
  value : CmdWord
deriving DecidableEq, Repr

/-- `word & mask = match` (R84). -/
def TableRow.matchesWord (r : TableRow) (w : CmdWord) : Bool :=
  w &&& r.format.mask == r.value

/-- The opcode map of R84, in the order of spec/opcode_table.json. -/
def opcodeTable : List TableRow :=
  [ ⟨"CSRR", .c, 0x01000000#32⟩, ⟨"CSRW", .c, 0x02000000#32⟩, ⟨"CLRERR", .n, 0x03000000#32⟩,
    ⟨"MULH", .n, 0x10000000#32⟩, ⟨"FMIX32", .n, 0x20000000#32⟩, ⟨"FMIX64", .n, 0x21000000#32⟩,
    ⟨"TABH", .n, 0x30000000#32⟩, ⟨"TABBEGIN", .n, 0x31000000#32⟩, ⟨"TABW", .t, 0x32000000#32⟩,
    ⟨"TABRD", .t, 0x33000000#32⟩, ⟨"TABRAND", .n, 0x34000000#32⟩, ⟨"TABCOMMIT", .n, 0x35000000#32⟩ ]

/-- The rows a word matches: one for a legal word, none for an illegal one (R86, R93). -/
def matchingRows (w : CmdWord) : List TableRow :=
  opcodeTable.filter (·.matchesWord w)

/-- A command is well formed when its word matches a row of the opcode map; the operand is never checked (R86, R87). -/
def Command.wellFormed (c : Command) : Bool :=
  opcodeTable.any (·.matchesWord c.word)

/-- The mnemonic of an instruction's row in spec/opcode_table.json. -/
def Instr.mnemonic : Instr → String
  | .csrr _ _ => "CSRR"
  | .csrw _ _ => "CSRW"
  | .clrerr _ => "CLRERR"
  | .mulh _ => "MULH"
  | .fmix32 _ => "FMIX32"
  | .fmix64 _ => "FMIX64"
  | .tabh _ => "TABH"
  | .tabbegin _ => "TABBEGIN"
  | .tabw _ _ _ => "TABW"
  | .tabrd _ _ _ => "TABRD"
  | .tabrand _ => "TABRAND"
  | .tabcommit _ => "TABCOMMIT"

end Sys2Proof
end

