-- ==== Sys2Proof/Decode.lean ====
section
/-! DEFINITION. The decoder, total on every command and refusing by name, and the encoder (30_encoding.md R82 to R86,
R93). Decoding reads the word alone; the operand is carried along (R87, R93). -/

namespace Sys2Proof

/-- Why a word is no command; both reasons are answered with `ILLEGAL_CMD` (R86, R217). -/
inductive DecodeError where
  /-- `word[31:24]` is none of the twelve opcodes -/
  | unassignedOpcode (opcode : Opcode)
  /-- the opcode is assigned but a field that must be zero is not (R85) -/
  | reservedBits (opcode : Opcode)
deriving DecidableEq, Repr

/-- `word[31:24]` (R82). -/
def opcodeOf (w : CmdWord) : Opcode := w.extractLsb' 24 8

/-- `csr = word[23:16]` (R83). -/
def csrOf (w : CmdWord) : CsrAddr := w.extractLsb' 16 8

/-- `col = word[18:16]` (R83). -/
def colOf (w : CmdWord) : Col := w.extractLsb' 16 3

/-- `row = word[15:8]` (R83). -/
def rowOf (w : CmdWord) : Row := w.extractLsb' 8 8

/-- The zero field of format N, `word[23:0]` (R82). -/
def zeroN (w : CmdWord) : Bool := w.extractLsb' 0 24 == 0#24

/-- The zero field of format C, `word[15:0]` (R82). -/
def zeroC (w : CmdWord) : Bool := w.extractLsb' 0 16 == 0#16

/-- The zero fields of format T, `word[23:19]` and `word[7:0]` (R82). -/
def zeroT (w : CmdWord) : Bool := w.extractLsb' 19 5 == 0#5 && w.extractLsb' 0 8 == 0#8

/-- An instruction whose zero fields were checked, or the refusal of R85. -/
def checked (w : CmdWord) (zero : Bool) (i : Instr) : Except DecodeError Instr :=
  if zero then .ok i else .error (.reservedBits (opcodeOf w))

/-- Decoding (R84, R86, R93): the opcode picks the row, the row's format its fields and its zero bits. -/
def decode (c : Command) : Except DecodeError Instr :=
  let w := c.word
  let op := opcodeOf w
  if op = 0x01#8 then checked w (zeroC w) (.csrr (csrOf w) c.opa)
  else if op = 0x02#8 then checked w (zeroC w) (.csrw (csrOf w) c.opa)
  else if op = 0x03#8 then checked w (zeroN w) (.clrerr c.opa)
  else if op = 0x10#8 then checked w (zeroN w) (.mulh c.opa)
  else if op = 0x20#8 then checked w (zeroN w) (.fmix32 c.opa)
  else if op = 0x21#8 then checked w (zeroN w) (.fmix64 c.opa)
  else if op = 0x30#8 then checked w (zeroN w) (.tabh c.opa)
  else if op = 0x31#8 then checked w (zeroN w) (.tabbegin c.opa)
  else if op = 0x32#8 then checked w (zeroT w) (.tabw (colOf w) (rowOf w) c.opa)
  else if op = 0x33#8 then checked w (zeroT w) (.tabrd (colOf w) (rowOf w) c.opa)
  else if op = 0x34#8 then checked w (zeroN w) (.tabrand c.opa)
  else if op = 0x35#8 then checked w (zeroN w) (.tabcommit c.opa)
  else .error (.unassignedOpcode op)

/-- A word of format N (R82). -/
def wordN (op : Opcode) : CmdWord := op ++ 0#24

/-- A word of format C (R82). -/
def wordC (op : Opcode) (csr : CsrAddr) : CmdWord := op ++ csr ++ 0#16

/-- A word of format T (R82). -/
def wordT (op : Opcode) (col : Col) (row : Row) : CmdWord := op ++ 0#5 ++ col ++ row ++ 0#8

/-- The command word of an instruction (R82, R84). -/
def Instr.word : Instr → CmdWord
  | .csrr csr _ => wordC 0x01#8 csr
  | .csrw csr _ => wordC 0x02#8 csr
  | .clrerr _ => wordN 0x03#8
  | .mulh _ => wordN 0x10#8
  | .fmix32 _ => wordN 0x20#8
  | .fmix64 _ => wordN 0x21#8
  | .tabh _ => wordN 0x30#8
  | .tabbegin _ => wordN 0x31#8
  | .tabw col row _ => wordT 0x32#8 col row
  | .tabrd col row _ => wordT 0x33#8 col row
  | .tabrand _ => wordN 0x34#8
  | .tabcommit _ => wordN 0x35#8

/-- The operand of an instruction (R80, R87). -/
def Instr.operand : Instr → Data
  | .csrr _ opa => opa
  | .csrw _ opa => opa
  | .clrerr opa => opa
  | .mulh opa => opa
  | .fmix32 opa => opa
  | .fmix64 opa => opa
  | .tabh opa => opa
  | .tabbegin opa => opa
  | .tabw _ _ opa => opa
  | .tabrd _ _ opa => opa
  | .tabrand opa => opa
  | .tabcommit opa => opa

/-- The command of an instruction: its word and its operand. -/
def encode (i : Instr) : Command := ⟨i.word, i.operand⟩

/-- A command from its 96 bits, the word in bits 31:0 and the operand, which comes after the word, in bits 95:32
(log entry 12). -/
def Command.ofBits (b : BitVec 96) : Command := ⟨b.extractLsb' 0 32, b.extractLsb' 32 64⟩

/-- The command whose first `nbits` bits are `w` and whose bits above are 0. -/
def commandOfTableWord (nbits w : Nat) : Command :=
  Command.ofBits (BitVec.ofNat 96 (w % 2 ^ nbits))

/-- What the decoder reads from the instruction whose bits, numbered as spec/opcode_table.json numbers them, are `w`. -/
def decodeTableWord (nbits w : Nat) : Option Instr :=
  (decode (commandOfTableWord nbits w)).toOption

end Sys2Proof
end

