-- ==== Sys2Proof/Machine/State.lean ====
section
/-! DEFINITION. The state of the block (10_state.md R20, R24, R36, R42), the response it gives (30_encoding.md R80,
60_exceptions.md R216), the inputs of its environment (00_scope.md R17), and the reasons a step can stop. -/

namespace Sys2Proof.Machine

/-- The status of a response (R216). Codes `0x7` to `0xF` are never produced, so they have no constructor. -/
inductive Status where
  /-- `OK`, success -/
  | ok
  /-- `ILLEGAL_CMD`, the word matches no row of the opcode map (R217) -/
  | illegalCmd
  /-- `BAD_CSR`, unimplemented address, or a write to a read-only register (R218) -/
  | badCsr
  /-- `BAD_VALUE`, illegal value for `MULCFG` or `TABCFG` (R219) -/
  | badValue
  /-- `TAB_NOT_READY`, no tabulation instance (R220) -/
  | tabNotReady
  /-- `TAB_LOCKED`, the instance exists and is immutable (R221) -/
  | tabLocked
  /-- `BAD_INDEX`, the column is outside the instance (R222) -/
  | badIndex
deriving DecidableEq, Repr

/-- A response: a status and 64 bits of data (R80). -/
structure Response where
  /-- the status, `st[3:0]` -/
  st : Status
  /-- the response data -/
  data : Data
deriving DecidableEq, Repr

/-- What the environment presents to the block: a command of the host, or the reset event (R17, R240). -/
inductive Input where
  /-- the host presents a command -/
  | command (c : Command)
  /-- the reset event, between two commands (R240) -/
  | reset
deriving DecidableEq, Repr

/-- The written cells of the table memory as (cell number, value) pairs, cell number `256 * column + row`, strictly
rising. At this level an unlisted cell has NO value; what the block reads there is `State.cell` (log entries 1, 2). -/
abbrev Memory := List (Nat × Data)

/-- Faults that stop the machine. There are none: "There is no fault that stops the block, no stuck state and no
hang" (R18); an error is an ordinary response (R215). Nobody raises one; safe. -/
inductive Fault where
deriving DecidableEq, Repr

/-- Reasons a step has no meaning. -/
inductive Refusal where
  /-- Raised by `exec`'s arm of an instruction that has no meaning yet; no arm raises it now. Safe: a refused step
  proves nothing about the block. -/
  | notModelled (mnemonic : String)
deriving DecidableEq, Repr

/-- The whole state (R20): the writable and status registers of R24, the table of R36, and four fields of the model's
own: which reset and which draw the free values belong to, and the two ends of the command port. `ID` is hard-wired
and stands in `State.readCsr` (R25). -/
structure State where
  /-- `STATUS`, 0x01: `TABRDY` bit 0, `ERR` bit 1 (R26) -/
  status : Data
  /-- `ECAUSE`, 0x02: the recorded status code (R27) -/
  ecause : Data
  /-- `ECMD`, 0x03: the recorded command word (R28) -/
  ecmd : Data
  /-- `MULCFG`, 0x10: `P`, `W64`, `MODE`, `CSEL` (R29) -/
  mulcfg : Data
  /-- `MULA`, 0x11: the custom multiplier (R31) -/
  mula : Data
  /-- `MULN`, 0x12: the bound of the range-scaled form (R32) -/
  muln : Data
  /-- `TABCFG`, 0x20: `COLS`, `W64` (R33) -/
  tabcfg : Data
  /-- `TABSEED`, 0x21: the accumulator start value (R35) -/
  tabseed : Data
  /-- the cells of `TAB` written since the last reset (R36) -/
  table : Memory
  /-- MODEL: how many resets there were, which tells the free values of unwritten cells apart (log entry 1) -/
  resets : Nat
  /-- MODEL: how many entropy draws there were, which tells their free values apart (log entry 3) -/
  draws : Nat
  /-- MODEL: what the environment presents next, oldest first (log entry 4) -/
  inputs : List Input
  /-- MODEL: the responses given so far, in order (log entry 5) -/
  responses : List Response
deriving DecidableEq, Repr

/-- The state right after reset (R42): the stated register values, no cell written, nothing presented or answered. -/
def State.reset : State where
  status := 0x0#64
  ecause := 0x0#64
  ecmd := 0x0#64
  mulcfg := 0x420#64
  mula := 0x0#64
  muln := 0x0#64
  tabcfg := 0x004#64
  tabseed := 0x0#64
  table := []
  resets := 0
  draws := 0
  inputs := []
  responses := []

end Sys2Proof.Machine
end

