-- ==== Sys2Proof/Machine/Flags.lean ====
section
/-! DEFINITION. The two status flags of the block, fields of `STATUS`: `TABRDY` and `ERR` (10_state.md R23, R26).
There are no arithmetic flags (R23), so no command computes one. -/

namespace Sys2Proof.Machine

/-- A word with bit `i` set or cleared and every other bit kept. -/
def assignBit (v : Data) (i : Nat) (b : Bool) : Data :=
  if b then v ||| BitVec.twoPow 64 i else v &&& ~~~BitVec.twoPow 64 i

/-- `STATUS.TABRDY`: a tabulation instance exists and is locked (R26, R171). -/
def State.tabrdy (s : State) : Bool := s.status.getLsbD 0

/-- `STATUS.ERR`: `ECAUSE` and `ECMD` hold a recorded error (R26). -/
def State.err (s : State) : Bool := s.status.getLsbD 1

/-- `CSR[STATUS].TABRDY <- b`. -/
def State.setTabrdy (s : State) (b : Bool) : State := { s with status := assignBit s.status 0 b }

/-- `CSR[STATUS].ERR <- b`. -/
def State.setErr (s : State) (b : Bool) : State := { s with status := assignBit s.status 1 b }

end Sys2Proof.Machine
end

