-- ==== Sys2Proof/Config.lean ====
section
/-! DEFINITION. What the spec leaves to the implementation or leaves free: the OPEN parameters of 00_scope.md R13
and the two sources of unspecified values (unwritten table cells, 10_state.md R42; entropy draws, 10_state.md R40).
All are opaque constants with no body: a proof about them holds whatever they are. -/

namespace Sys2Proof.Config

/-- Bits 31:1 of `A_PRIME32`; the one thing R13 states of the constant is that it is odd (log entry 6). -/
opaque aPrime32Upper : BitVec 31

/-- Bits 63:1 of `A_PRIME64` (R13, log entry 6). -/
opaque aPrime64Upper : BitVec 63

/-- `A_PRIME32`, the 32-bit "prime" family multiplier: any odd value (R13, R111). -/
def aPrime32 : BitVec 32 := aPrime32Upper ++ 1#1

/-- `A_PRIME64`, the 64-bit "prime" family multiplier: any odd value (R13, R111). -/
def aPrime64 : BitVec 64 := aPrime64Upper ++ 1#1

/-- `A_FIB32`, the 32-bit "Fibonacci" multiplier: any value (R13, R111, log entry 6). -/
opaque aFib32 : BitVec 32

/-- `A_FIB64`, the 64-bit "Fibonacci" multiplier: any value (R13, R111, log entry 6). -/
opaque aFib64 : BitVec 64

/-- `A_FIBPRIME32`, the 32-bit "Fibonacci-prime" multiplier: any value (R13, R111, log entry 6). -/
opaque aFibPrime32 : BitVec 32

/-- `A_FIBPRIME64`, the 64-bit "Fibonacci-prime" multiplier: any value (R13, R111, log entry 6). -/
opaque aFibPrime64 : BitVec 64

/-- `M3_SEED32`, the default seed of the 32-bit reference function (R13, R141, log entry 7). -/
opaque m3Seed32 : BitVec 32

/-- `M3_SEED64`, the default seed of the 128-bit reference functions (R13, R141, log entry 7). -/
opaque m3Seed64 : BitVec 64

/-- FREE VALUE. `resetCell n k`: what cell number `k` holds after the `n`-th reset until a command writes it
(10_state.md R42: unspecified and stable; 93 U1, U2; log entry 1). -/
opaque resetCell : Nat → Nat → BitVec 64

/-- FREE VALUE. `entropy k`: the 64 bits the entropy source gives at draw number `k`, under no law
(10_state.md R40; 93 U3; log entry 3). -/
opaque entropy : Nat → BitVec 64

end Sys2Proof.Config
end

