-- ==== Sys2Proof/Machine/Operands.lean ====
section
/-! DEFINITION. Operand forms: word widths and their views of 64-bit values, the fields of `MULCFG` and `TABCFG` and
their legal values, key bytes, table cell numbers, and the register addresses (00_scope.md R14; 10_state.md R24, R29,
R30, R33, R34, R37; 20_memory.md R62). -/

namespace Sys2Proof.Machine

/-- The word width `W` of a hash operation: 32 or 64 and nothing else (R10). -/
inductive Width where
  /-- `W = 32` -/
  | w32
  /-- `W = 64` -/
  | w64
deriving DecidableEq, Repr

/-- `W` in bits. -/
def Width.bits : Width → Nat
  | .w32 => 32
  | .w64 => 64

/-- `W/8`, the number of key bytes. -/
def Width.bytes : Width → Nat
  | .w32 => 4
  | .w64 => 8

/-- The width a `W64` bit selects (R29, R33). -/
def Width.ofW64 (w64 : Bool) : Width := if w64 then .w64 else .w32

/-- `zext_64(v[W-1:0])`: what a `W`-bit operation sees of a 64-bit value (R37, R87). -/
def Width.view (w : Width) (v : Data) : Data :=
  match w with
  | .w32 => (v.setWidth 32).setWidth 64
  | .w64 => v

/-- `byte_i(v) = v[8i+7:8i]`, byte 0 the least significant (R14, R62). -/
def byteOf (v : Data) (i : Nat) : BitVec 8 := v.extractLsb' (8 * i) 8

/-! The fields of `MULCFG` (R29). -/

/-- `MULCFG.P` = bits 6:0. -/
def mulcfgP (v : Data) : Nat := (v.extractLsb' 0 7).toNat

/-- The width selected by `MULCFG.W64`, bit 8. -/
def mulcfgWidth (v : Data) : Width := Width.ofW64 (v.getLsbD 8)

/-- `MULCFG.MODE`, bit 9: false = top-`p`-bits form, true = range-scaled form. -/
def mulcfgMode (v : Data) : Bool := v.getLsbD 9

/-- `MULCFG.CSEL` = bits 11:10. -/
def mulcfgCsel (v : Data) : BitVec 2 := v.extractLsb' 10 2

/-- `legal_MULCFG` (R30, R201): reserved bits zero and `P <= W`. -/
def legalMulcfg (v : Data) : Bool :=
  v.extractLsb' 12 52 == 0#52 && !v.getLsbD 7 && decide (mulcfgP v ≤ (mulcfgWidth v).bits)

/-! The fields of `TABCFG` (R33). -/

/-- `TABCFG.COLS` = bits 3:0. -/
def tabcfgCols (v : Data) : Nat := (v.extractLsb' 0 4).toNat

/-- The width selected by `TABCFG.W64`, bit 8. -/
def tabcfgWidth (v : Data) : Width := Width.ofW64 (v.getLsbD 8)

/-- `legal_TABCFG` (R34, R201): reserved bits zero and `COLS` one of 1, 4, 8. -/
def legalTabcfg (v : Data) : Bool :=
  v.extractLsb' 9 55 == 0#55 && v.extractLsb' 4 4 == 0#4 &&
    (tabcfgCols v == 1 || tabcfgCols v == 4 || tabcfgCols v == 8)

/-! Table cells (R36, R60). -/

/-- `ROWS`, rows per column (R11). -/
def tableRows : Nat := 256

/-- `TAB_MAXCOLS`, physical columns (R12, R36). -/
def tableCols : Nat := 8

/-- The number of the cell in column `c`, row `r`: 256 cells a column, one column after another (log entry 2). -/
def cellNumber (c r : Nat) : Nat := tableRows * c + r

/-! Registers (R24). -/

/-- The nine implemented registers. -/
inductive Csr where
  | id
  | status
  | ecause
  | ecmd
  | mulcfg
  | mula
  | muln
  | tabcfg
  | tabseed
deriving DecidableEq, Repr

/-- The register at an address; every other address is unimplemented (R24, R43). -/
def csrAt (a : CsrAddr) : Option Csr :=
  if a = 0x00#8 then some .id
  else if a = 0x01#8 then some .status
  else if a = 0x02#8 then some .ecause
  else if a = 0x03#8 then some .ecmd
  else if a = 0x10#8 then some .mulcfg
  else if a = 0x11#8 then some .mula
  else if a = 0x12#8 then some .muln
  else if a = 0x20#8 then some .tabcfg
  else if a = 0x21#8 then some .tabseed
  else none

/-- "RO" of the table in R24: `CSRW` to it is refused with `BAD_CSR`. -/
def csrReadOnly : Csr → Bool
  | .id => true
  | .status => true
  | .ecause => true
  | .ecmd => true
  | .mulcfg => false
  | .mula => false
  | .muln => false
  | .tabcfg => false
  | .tabseed => false

/-- "RW while `TABRDY = 0`" of the table in R24 (R33, R35). -/
def csrLockable : Csr → Bool
  | .id => false
  | .status => false
  | .ecause => false
  | .ecmd => false
  | .mulcfg => false
  | .mula => false
  | .muln => false
  | .tabcfg => true
  | .tabseed => true

/-- The value check of a register (R30, R31, R32, R34, R35). -/
def csrLegal (r : Csr) (v : Data) : Bool :=
  match r with
  | .id => true
  | .status => true
  | .ecause => true
  | .ecmd => true
  | .mulcfg => legalMulcfg v
  | .mula => true
  | .muln => true
  | .tabcfg => legalTabcfg v
  | .tabseed => true

end Sys2Proof.Machine
end

