-- ==== Sys2Proof/Machine/Ops.lean ====
section
/-! DEFINITION. The named operations over memory and registers: the sparse table memory, cells, registers, entropy
draws, the response, error entry and clearing the record, reset, and taking the next input. -/

namespace Sys2Proof.Machine

/-! The table memory (10_state.md R36; log entry 2). -/

/-- The value listed for cell `k`, if the cell was written. -/
def Memory.read? (k : Nat) : Memory → Option Data
  | [] => none
  | (b, u) :: m => if k = b then some u else Memory.read? k m

/-- Memory with cell `k` holding `v`; the list stays strictly rising. -/
def Memory.write (k : Nat) (v : Data) : Memory → Memory
  | [] => [(k, v)]
  | (b, u) :: m =>
    if k < b then (k, v) :: (b, u) :: m
    else if k = b then (k, v) :: m
    else (b, u) :: Memory.write k v m

/-- Memory with every cell below `n` holding the value `f` gives it, the others kept. -/
def Memory.fill (n : Nat) (f : Nat → Data) (m : Memory) : Memory :=
  (List.range n).map (fun k => (k, f k)) ++ m.filter (fun e => decide (n ≤ e.1))

/-- Every listed cell number lies in `[lo, hi)` and the numbers strictly rise. -/
def Memory.within (lo hi : Nat) : Memory → Bool
  | [] => true
  | (b, _) :: m => decide (lo ≤ b) && decide (b < hi) && Memory.within (b + 1) hi m

/-- The canonical form: cell numbers strictly rising, each one of the 8 * 256 cells of R36. An unlisted cell has no
value at this level, so no entry can equal what an unlisted one reads as. -/
def Memory.wf (m : Memory) : Bool := Memory.within 0 (tableCols * tableRows) m

/-! Single-field updates. -/

/-- `STATUS <- v`. -/
def State.setStatus (s : State) (v : Data) : State := { s with status := v }
/-- `ECAUSE <- v`. -/
def State.setEcause (s : State) (v : Data) : State := { s with ecause := v }
/-- `ECMD <- v`. -/
def State.setEcmd (s : State) (v : Data) : State := { s with ecmd := v }
/-- `MULCFG <- v`. -/
def State.setMulcfg (s : State) (v : Data) : State := { s with mulcfg := v }
/-- `MULA <- v`. -/
def State.setMula (s : State) (v : Data) : State := { s with mula := v }
/-- `MULN <- v`. -/
def State.setMuln (s : State) (v : Data) : State := { s with muln := v }
/-- `TABCFG <- v`. -/
def State.setTabcfg (s : State) (v : Data) : State := { s with tabcfg := v }
/-- `TABSEED <- v`. -/
def State.setTabseed (s : State) (v : Data) : State := { s with tabseed := v }
/-- The table memory replaced. -/
def State.setTable (s : State) (m : Memory) : State := { s with table := m }
/-- `n` more entropy draws were made. -/
def State.addDraws (s : State) (n : Nat) : State := { s with draws := s.draws + n }
/-- The pending inputs replaced. -/
def State.setInputs (s : State) (l : List Input) : State := { s with inputs := l }
/-- One more response, after those given before (20_memory.md R68). -/
def State.addResponse (s : State) (r : Response) : State := { s with responses := s.responses ++ [r] }

/-! Table cells (10_state.md R36, R37, R42; 00_scope.md R16). -/

/-- `TAB[c][r]`, all 64 bits: the value last written since reset, else the cell's free value of this reset (R42). -/
def State.cell (s : State) (c r : Nat) : Data :=
  (Memory.read? (cellNumber c r) s.table).getD (Config.resetCell s.resets (cellNumber c r))

/-- `MemRead((c, r), W/8)`, extended with zeros to 64 bits (R16, R37). -/
def State.memRead (s : State) (w : Width) (c r : Nat) : Data := w.view (s.cell c r)

/-- `MemWrite((c, r), W/8, v)`: `TAB[c][r] <- zext_64(v[W-1:0])` (R16, R37). -/
def State.memWrite (s : State) (w : Width) (c r : Nat) (v : Data) : State :=
  s.setTable (Memory.write (cellNumber c r) (w.view v) s.table)

/-- The columns `0` to `cols-1` filled with one fresh `Draw(W)` a cell (R16, R40, 44_tabulation.md R174). The cell
numbered `k` takes draw number `draws + k`; the order is not observable (20_memory.md R66). Only the eight columns
that exist are filled (log entry 9). -/
def State.fillColumns (s : State) (w : Width) (cols : Nat) : State :=
  let n := tableRows * min cols tableCols
  (s.setTable (Memory.fill n (fun k => w.view (Config.entropy (s.draws + k))) s.table)).addDraws n

/-! Registers (10_state.md R24, R25). -/

/-- The constant value of `ID` (R25, log entry 11). -/
def idValue : Data := 0x4D334D5800080701#64

/-- `CSR[r]` (R200); `ID` is hard-wired (R25). -/
def State.readCsr (s : State) (r : Csr) : Data :=
  match r with
  | .id => idValue
  | .status => s.status
  | .ecause => s.ecause
  | .ecmd => s.ecmd
  | .mulcfg => s.mulcfg
  | .mula => s.mula
  | .muln => s.muln
  | .tabcfg => s.tabcfg
  | .tabseed => s.tabseed

/-- `CSR[r] <- v` for the registers `CSRW` may write (R201); the read-only ones keep their value. -/
def State.writeCsr (s : State) (r : Csr) (v : Data) : State :=
  match r with
  | .id => s
  | .status => s
  | .ecause => s
  | .ecmd => s
  | .mulcfg => s.setMulcfg v
  | .mula => s.setMula v
  | .muln => s.setMuln v
  | .tabcfg => s.setTabcfg v
  | .tabseed => s.setTabseed v

/-! Responses and the error record (00_scope.md R16; 60_exceptions.md R215, R216, R224). -/

/-- The 4-bit code of a status (R216). -/
def statusCode : Status → BitVec 4
  | .ok => 0x0#4
  | .illegalCmd => 0x1#4
  | .badCsr => 0x2#4
  | .badValue => 0x3#4
  | .tabNotReady => 0x4#4
  | .tabLocked => 0x5#4
  | .badIndex => 0x6#4

/-- `respond(data)`: the command ends with status `OK` and the data (R16, R88). -/
def respond (data : Data) (s : State) : Host.Outcome State Fault Refusal :=
  .next (s.addResponse ⟨.ok, data⟩)

/-- The error record after an error: the first error since reset or `CLRERR` is kept (R224). -/
def State.recordError (s : State) (e : Status) (w : CmdWord) : State :=
  if s.err then s
  else ((s.setEcause ((statusCode e).setWidth 64)).setEcmd (w.setWidth 64)).setErr true

/-- The error record cleared, which re-arms it (R203, R226). -/
def State.clearRecord (s : State) : State :=
  ((s.setErr false).setEcause 0#64).setEcmd 0#64

/-- Error entry, `raise e(w)` (R224): the record, and the response `(code, 0)`; nothing else changes. It is the one
shared way an error is taken, and the block keeps running (R225). -/
def raise (e : Status) (w : CmdWord) (s : State) : Host.Outcome State Fault Refusal :=
  .next ((s.recordError e w).addResponse ⟨e, 0#64⟩)

/-- A word that decodes to no command: `ILLEGAL_CMD` (R86, R217). -/
def illegalCommand (c : Command) (s : State) : Host.Outcome State Fault Refusal :=
  raise .illegalCmd c.word s

/-! The environment (70_reset_and_hazards.md R240, R250). -/

/-- The reset event: every register at its reset value and every cell unspecified, a new free value each (R42, R240).
What the environment still presents, the responses already given and the count of draws are not the block's. -/
def State.afterReset (s : State) : State :=
  { State.reset with resets := s.resets + 1, draws := s.draws, inputs := s.inputs, responses := s.responses }

/-- No input pending: the block waits and holds its state (60_exceptions.md R234, R250). -/
def wait (s : State) : Host.Outcome State Fault Refusal := .next s

/-- `s` with a command presented before everything else that is pending. -/
def State.present (s : State) (c : Command) : State := s.setInputs (.command c :: s.inputs)

end Sys2Proof.Machine
end

