-- ==== Sys2Proof/Machine/Finalizer.lean ====
section
/-! DEFINITION. The Murmur finalizer, commands `FMIX32` and `FMIX64` (42_murmur_finalizer.md R130 to R137). -/

namespace Sys2Proof.Machine

/-- `x ^= x >> n`, a logical shift (R133). -/
def xorShift {w : Nat} (n : Nat) (x : BitVec w) : BitVec w := x ^^^ (x >>> n)

/-- The five steps at 32 bits (R131). -/
def fmix32 (x0 : BitVec 32) : BitVec 32 :=
  let x1 := xorShift 16 x0
  let x2 := x1 * 0x85EBCA6B#32
  let x3 := xorShift 13 x2
  let x4 := x3 * 0xC2B2AE35#32
  xorShift 16 x4

/-- The five steps at 64 bits (R132). -/
def fmix64 (x0 : BitVec 64) : BitVec 64 :=
  let x1 := xorShift 33 x0
  let x2 := x1 * 0xFF51AFD7ED558CCD#64
  let x3 := xorShift 33 x2
  let x4 := x3 * 0xC4CEB9FE1A85EC53#64
  xorShift 33 x4

/-- `FMIX32 opa` (R131): the word mixed is `opa[31:0]`; never refused, reads and writes no state. -/
def execFmix32 (opa : Data) (s : State) : Host.Outcome State Fault Refusal :=
  respond ((fmix32 (opa.setWidth 32)).setWidth 64) s

/-- `FMIX64 opa` (R132): never refused, reads and writes no state. -/
def execFmix64 (opa : Data) (s : State) : Host.Outcome State Fault Refusal :=
  respond (fmix64 opa) s

end Sys2Proof.Machine
end

