-- ==== Sys2Proof/Machine/Multiplicative.lean ====
section
/-! DEFINITION. The multiplicative (Fibonacci) mixer, command `MULH` (41_multiplicative.md R110 to R120). Products
are exact natural numbers, cut where the rule cuts them. -/

namespace Sys2Proof.Machine

/-- `A_sel(cfg)` (R111), a `W`-bit value extended with zeros: the family by `CSEL`, the width by `W64`; `CSEL = 3`
takes the custom multiplier. -/
def mulSelect (cfg mula : Data) : Data :=
  let csel := mulcfgCsel cfg
  match mulcfgWidth cfg with
  | .w32 =>
    if csel = 0#2 then Config.aPrime32.setWidth 64
    else if csel = 1#2 then Config.aFib32.setWidth 64
    else if csel = 2#2 then Config.aFibPrime32.setWidth 64
    else Width.w32.view mula
  | .w64 =>
    if csel = 0#2 then Config.aPrime64
    else if csel = 1#2 then Config.aFib64
    else if csel = 2#2 then Config.aFibPrime64
    else mula

/-- `prod = (key * A) mod 2^W` (R113). -/
def mulProduct (w : Width) (key a : Data) : Nat :=
  (w.view key).toNat * a.toNat % 2 ^ w.bits

/-- Mode 0: `floor(prod / 2^(W-p))`, the top `p` bits, 0 when `p = 0` (R113, R114). For a `p`
above `W`, which no run reaches, log entry 9. -/
def mulTop (w : Width) (p prod : Nat) : Nat := prod / 2 ^ (w.bits - p)

/-- Mode 1: `floor((prod * N) / 2^W)` with the exact product (R113, R116). -/
def mulRange (w : Width) (n : Data) (prod : Nat) : Nat := prod * (w.view n).toNat / 2 ^ w.bits

/-- The hash of a key under the instance (`MULCFG`, `MULA`, `MULN`) (R113). -/
def mulHash (cfg mula muln key : Data) : Data :=
  let w := mulcfgWidth cfg
  let prod := mulProduct w key (mulSelect cfg mula)
  BitVec.ofNat 64 (if mulcfgMode cfg then mulRange w muln prod else mulTop w (mulcfgP cfg) prod)

/-- `MULH opa` (R113): never refused, writes no state. -/
def execMulh (opa : Data) (s : State) : Host.Outcome State Fault Refusal :=
  respond (mulHash s.mulcfg s.mula s.muln opa) s

end Sys2Proof.Machine
end

