-- ==== Sys2Proof/Machine/System.lean ====
section
/-! DEFINITION. The system commands `CSRR`, `CSRW`, `CLRERR` (45_system.md R200, R201, R203). -/

namespace Sys2Proof.Machine

/-- `CSRR csr` (R200): the register's value, or `BAD_CSR`; `opa` is ignored. -/
def execCsrr (csr : CsrAddr) (opa : Data) (s : State) : Host.Outcome State Fault Refusal :=
  match csrAt csr with
  | none => raise .badCsr (Instr.csrr csr opa).word s
  | some r => respond (s.readCsr r) s

/-- `CSRW csr, opa` (R201), its checks in the order of R223: address and access, table phase, value. -/
def execCsrw (csr : CsrAddr) (opa : Data) (s : State) : Host.Outcome State Fault Refusal :=
  match csrAt csr with
  | none => raise .badCsr (Instr.csrw csr opa).word s
  | some r =>
    if csrReadOnly r then raise .badCsr (Instr.csrw csr opa).word s
    else if csrLockable r && s.tabrdy then raise .tabLocked (Instr.csrw csr opa).word s
    else if csrLegal r opa then respond 0#64 (s.writeCsr r opa)
    else raise .badValue (Instr.csrw csr opa).word s

/-- `CLRERR` (R203): the record is cleared, `TABRDY` is not touched; `opa` is ignored. -/
def execClrerr (_opa : Data) (s : State) : Host.Outcome State Fault Refusal :=
  respond 0#64 s.clearRecord

end Sys2Proof.Machine
end

