-- ==== Sys2Proof/Machine/Tabulation.lean ====
section
/-! DEFINITION. The tabulation hash mixer, commands `TABH`, `TABBEGIN`, `TABW`, `TABRD`, `TABRAND`, `TABCOMMIT`
(44_tabulation.md R170 to R183). The checks of each stand in the order of 60_exceptions.md R223. -/

namespace Sys2Proof.Machine

/-- The accumulator after bytes `0` to `n-1` of the key: each xors in the cell at column `i mod cols`, row byte `i`
(R176). -/
def tabAccumulate (s : State) (w : Width) (cols : Nat) (key : Data) (start : Data) : Nat → Data
  | 0 => start
  | i + 1 => tabAccumulate s w cols key start i ^^^ s.memRead w (i % cols) (byteOf key i).toNat

/-- The hash of a key under the instance (`TABCFG`, `TABSEED`, its cells) (R176). -/
def tabHash (s : State) (key : Data) : Data :=
  let w := tabcfgWidth s.tabcfg
  tabAccumulate s w (tabcfgCols s.tabcfg) (w.view key) (w.view s.tabseed) w.bytes

/-- `TABH opa` (R176): refused while no instance exists. -/
def execTabh (opa : Data) (s : State) : Host.Outcome State Fault Refusal :=
  if s.tabrdy then respond (tabHash s opa) s
  else raise .tabNotReady (Instr.tabh opa).word s

/-- `TABBEGIN` (R172): accepted in both phases; cells and registers stay; `opa` is ignored. -/
def execTabbegin (_opa : Data) (s : State) : Host.Outcome State Fault Refusal :=
  respond 0#64 (s.setTabrdy false)

/-- `TABW col, row, opa` (R173): one cell through the `W`-bit view. -/
def execTabw (col : Col) (row : Row) (opa : Data) (s : State) : Host.Outcome State Fault Refusal :=
  if s.tabrdy then raise .tabLocked (Instr.tabw col row opa).word s
  else if tabcfgCols s.tabcfg ≤ col.toNat then raise .badIndex (Instr.tabw col row opa).word s
  else respond 0#64 (s.memWrite (tabcfgWidth s.tabcfg) col.toNat row.toNat opa)

/-- `TABRD col, row` (R177): one cell of the constructed instance; `opa` is ignored. -/
def execTabrd (col : Col) (row : Row) (opa : Data) (s : State) : Host.Outcome State Fault Refusal :=
  if s.tabrdy then
    if tabcfgCols s.tabcfg ≤ col.toNat then raise .badIndex (Instr.tabrd col row opa).word s
    else respond (s.memRead (tabcfgWidth s.tabcfg) col.toNat row.toNat) s
  else raise .tabNotReady (Instr.tabrd col row opa).word s

/-- `TABRAND` (R174): every cell of the instance's columns takes a fresh draw; `opa` is ignored. -/
def execTabrand (opa : Data) (s : State) : Host.Outcome State Fault Refusal :=
  if s.tabrdy then raise .tabLocked (Instr.tabrand opa).word s
  else respond 0#64 (s.fillColumns (tabcfgWidth s.tabcfg) (tabcfgCols s.tabcfg))

/-- `TABCOMMIT` (R175): the instance exists and is locked; cells are not checked; `opa` is ignored. -/
def execTabcommit (opa : Data) (s : State) : Host.Outcome State Fault Refusal :=
  if s.tabrdy then raise .tabLocked (Instr.tabcommit opa).word s
  else respond 0#64 (s.setTabrdy true)

end Sys2Proof.Machine
end

