-- ==== Sys2Proof/Machine/Dispatch.lean ====
section
/-! DEFINITION. The dispatch of a decoded instruction to its meaning, one arm per constructor (30_encoding.md R84). -/

namespace Sys2Proof.Machine

def exec (i : Instr) (s : State) : Host.Outcome State Fault Refusal :=
  match i with
  | .csrr csr opa => Sys2Proof.Machine.execCsrr csr opa s
  | .csrw csr opa => Sys2Proof.Machine.execCsrw csr opa s
  | .clrerr opa => Sys2Proof.Machine.execClrerr opa s
  | .mulh opa => Sys2Proof.Machine.execMulh opa s
  | .fmix32 opa => Sys2Proof.Machine.execFmix32 opa s
  | .fmix64 opa => Sys2Proof.Machine.execFmix64 opa s
  | .tabh opa => Sys2Proof.Machine.execTabh opa s
  | .tabbegin opa => Sys2Proof.Machine.execTabbegin opa s
  | .tabw col row opa => Sys2Proof.Machine.execTabw col row opa s
  | .tabrd col row opa => Sys2Proof.Machine.execTabrd col row opa s
  | .tabrand opa => Sys2Proof.Machine.execTabrand opa s
  | .tabcommit opa => Sys2Proof.Machine.execTabcommit opa s

end Sys2Proof.Machine
end

