-- ==== Sys2Proof/Machine/Step.lean ====
section
/-! DEFINITION. One step of the block: the oldest pending input is taken and performed whole (00_scope.md R17, R18;
20_memory.md R66, R68). -/

namespace Sys2Proof.Machine

/-- One step: a command is decoded and executed, an illegal word is answered `ILLEGAL_CMD`, a reset event resets, and
with nothing pending the block waits. -/
def step (s : State) : Host.Outcome State Fault Refusal :=
  match s.inputs with
  | [] => wait s
  | .reset :: rest => .next (s.setInputs rest).afterReset
  | .command c :: rest =>
    match decode c with
    | .ok i => exec i (s.setInputs rest)
    | .error _ => illegalCommand c (s.setInputs rest)

/-- `s` with the instruction whose bits are `w` presented as the next command, which is where `step` takes its next
instruction from (log entry 4). -/
def State.withFetchWord (s : State) (nbits w : Nat) : State :=
  s.present (commandOfTableWord nbits w)

end Sys2Proof.Machine
end

