-- ==== Sys2Proof/Machine/Assembler.lean ====
section
/-! DEFINITION. The assembler's line syntax and the pseudo-instructions (30_encoding.md R90, R91): one line of text
to the instruction it writes down. Log entry 10 says what the two rules leave open. -/

namespace Sys2Proof.Machine

/-- Why a line does not assemble. -/
inductive AsmError where
  /-- the operands are not those of the mnemonic, or not separated by commas -/
  | badOperands
  /-- no command or pseudo-instruction of R90, R91 has this mnemonic with so many operands -/
  | noSuchForm
  /-- a number does not fit its field (R90) -/
  | doesNotFit
deriving DecidableEq, Repr

/-- A token: a run of characters in upper case, or a comma. -/
inductive Token where
  | run (cs : List Char)
  | comma
deriving DecidableEq, Repr

/-- A collected run, kept in reverse, as a token if it is not empty. -/
def flushRun : List Char → List Token
  | [] => []
  | c :: cs => [.run (c :: cs).reverse]

/-- The tokens of a line: blanks separate, `;` starts a comment, letters are taken in upper case (R90). -/
def tokens : List Char → List Char → List Token
  | [], acc => flushRun acc
  | c :: cs, acc =>
    if c = ';' then flushRun acc
    else if c = ' ' ∨ c = '\t' then flushRun acc ++ tokens cs []
    else if c = ',' then flushRun acc ++ .comma :: tokens cs []
    else tokens cs (c.toUpper :: acc)

/-- The operands of a line, separated by single commas. -/
def operandRuns : List Token → Option (List (List Char))
  | [.run a] => some [a]
  | .run a :: .comma :: ts => (operandRuns ts).map (a :: ·)
  | _ => none

/-- The value of a digit. -/
def digitValue (c : Char) : Option Nat :=
  if 48 ≤ c.toNat ∧ c.toNat ≤ 57 then some (c.toNat - 48)
  else if 65 ≤ c.toNat ∧ c.toNat ≤ 70 then some (c.toNat - 55)
  else none

/-- The digits of a number; `_` stands only between two digits (R90). `last` says that a digit came just before. -/
def digits (base acc : Nat) (last : Bool) : List Char → Option Nat
  | [] => if last then some acc else none
  | c :: cs =>
    if c = '_' then (if last then digits base acc false cs else none)
    else
      match digitValue c with
      | some v => if v < base then digits base (base * acc + v) true cs else none
      | none => none

/-- A number: `0x` hexadecimal or decimal (R90). -/
def number : List Char → Option Nat
  | '0' :: 'X' :: cs => digits 16 0 false cs
  | cs => digits 10 0 false cs

/-- A number of a field of `w` bits. -/
def fieldOf (w : Nat) (cs : List Char) : Except AsmError (BitVec w) :=
  match number cs with
  | some n => if n < 2 ^ w then .ok (BitVec.ofNat w n) else .error .doesNotFit
  | none => .error .badOperands

/-- The register names of R24 with their addresses. -/
def csrNames : List (List Char × CsrAddr) :=
  [ ("ID".toList, 0x00#8), ("STATUS".toList, 0x01#8), ("ECAUSE".toList, 0x02#8), ("ECMD".toList, 0x03#8),
    ("MULCFG".toList, 0x10#8), ("MULA".toList, 0x11#8), ("MULN".toList, 0x12#8), ("TABCFG".toList, 0x20#8),
    ("TABSEED".toList, 0x21#8) ]

/-- `<csr>`: a register name of R24 or a number 0 to 255 (R90). -/
def csrOperand (cs : List Char) : Except AsmError CsrAddr :=
  match csrNames.find? (fun e => decide (e.1 = cs)) with
  | some e => .ok e.2
  | none => fieldOf 8 cs

/-- `<w>`: 32 or 64 (R91). -/
def widthOperand (cs : List Char) : Except AsmError Width :=
  match number cs with
  | some n => if n = 32 then .ok .w32 else if n = 64 then .ok .w64 else .error .doesNotFit
  | none => .error .badOperands

/-- `<csel>` of `MULSETUP` (R91). -/
def cselOperand (cs : List Char) : Except AsmError Nat :=
  if cs = "PRIME".toList then .ok 0
  else if cs = "FIB".toList then .ok 1
  else if cs = "FIBPRIME".toList then .ok 2
  else if cs = "CUSTOM".toList then .ok 3
  else .error .badOperands

/-- `<mode>` of `MULSETUP` (R91). -/
def modeOperand (cs : List Char) : Except AsmError Nat :=
  if cs = "TOP".toList then .ok 0
  else if cs = "RANGE".toList then .ok 1
  else .error .badOperands

/-- A number from 0 to `top`. -/
def upTo (top : Nat) (cs : List Char) : Except AsmError Nat :=
  match number cs with
  | some n => if n ≤ top then .ok n else .error .doesNotFit
  | none => .error .badOperands

/-- `w == 64` as a bit of weight 256 (R91). -/
def w64Bit (w : Width) : Nat :=
  match w with
  | .w32 => 0
  | .w64 => 256

/-- `MULSETUP csel, w, mode, p` (R91): `CSRW MULCFG` of the assembled value; its legality is the block's to check. -/
def mulSetup (csel : Nat) (w : Width) (mode p : Nat) : Instr :=
  .csrw 0x10#8 (BitVec.ofNat 64 (csel * 1024 + mode * 512 + w64Bit w + p))

/-- `TABSETUP cols, w` (R91): `CSRW TABCFG` of the assembled value. -/
def tabSetup (cols : Nat) (w : Width) : Instr := .csrw 0x20#8 (BitVec.ofNat 64 (w64Bit w + cols))

/-- `NOP` (R91): `CSRR ID`, sent with operand 0 (log entry 10). -/
def nop : Instr := .csrr 0x00#8 0#64

/-- The instruction of a mnemonic with no operand (R90, R91); the assembler sends `opa = 0`. -/
def assemble0 (m : List Char) : Except AsmError Instr :=
  if m = "CLRERR".toList then .ok (.clrerr 0#64)
  else if m = "TABBEGIN".toList then .ok (.tabbegin 0#64)
  else if m = "TABRAND".toList then .ok (.tabrand 0#64)
  else if m = "TABCOMMIT".toList then .ok (.tabcommit 0#64)
  else if m = "NOP".toList then .ok nop
  else .error .noSuchForm

/-- The instruction of a mnemonic with one operand (R90, R91). -/
def assemble1 (m a : List Char) : Except AsmError Instr :=
  if m = "FMIX32".toList then (fieldOf 64 a).map .fmix32
  else if m = "FMIX64".toList then (fieldOf 64 a).map .fmix64
  else if m = "MULH".toList then (fieldOf 64 a).map .mulh
  else if m = "TABH".toList then (fieldOf 64 a).map .tabh
  else if m = "CSRR".toList then (csrOperand a).map (.csrr · 0#64)
  else if m = "TABSMALL".toList then (widthOperand a).map (tabSetup 1 ·)
  else if m = "TABMEDIUM".toList then (widthOperand a).map (tabSetup 4 ·)
  else if m = "TABLARGE".toList then (widthOperand a).map (tabSetup 8 ·)
  else if m = "TABFULL".toList then (widthOperand a).map (fun w => tabSetup w.bytes w)
  else .error .noSuchForm

/-- The instruction of a mnemonic with two operands (R90, R91). -/
def assemble2 (m a b : List Char) : Except AsmError Instr :=
  if m = "CSRW".toList then do return .csrw (← csrOperand a) (← fieldOf 64 b)
  else if m = "TABRD".toList then do return .tabrd (← fieldOf 3 a) (← fieldOf 8 b) 0#64
  else if m = "TABSETUP".toList then do return tabSetup (← upTo 15 a) (← widthOperand b)
  else .error .noSuchForm

/-- The instruction of a mnemonic with three operands (R90). -/
def assemble3 (m a b c : List Char) : Except AsmError Instr :=
  if m = "TABW".toList then do return .tabw (← fieldOf 3 a) (← fieldOf 8 b) (← fieldOf 64 c)
  else .error .noSuchForm

/-- The instruction of a mnemonic with four operands (R91). -/
def assemble4 (m a b c d : List Char) : Except AsmError Instr :=
  if m = "MULSETUP".toList then do
    return mulSetup (← cselOperand a) (← widthOperand b) (← modeOperand c) (← upTo 64 d)
  else .error .noSuchForm

/-- The instruction a line writes down; `none` for a line that is empty or only a comment (R90). -/
def assembleLine (line : List Char) : Except AsmError (Option Instr) :=
  match tokens line [] with
  | [] => .ok none
  | .comma :: _ => .error .badOperands
  | [.run m] => (assemble0 m).map some
  | .run m :: ts =>
    match operandRuns ts with
    | some [a] => (assemble1 m a).map some
    | some [a, b] => (assemble2 m a b).map some
    | some [a, b, c] => (assemble3 m a b c).map some
    | some [a, b, c, d] => (assemble4 m a b c d).map some
    | some _ => .error .badOperands
    | none => .error .badOperands

end Sys2Proof.Machine
end

