-- ==== Sys2Proof/Machine/Murmur3.lean ====
section
/-! DEFINITION. The reference functions `M3_32`, `M3_64_128`, `M3_BUF_128` of 43_murmur3_hash_reference.md (R140 to
R153). They are no commands of the block (00_scope.md R5); a host computes them, with `FMIX32` and `FMIX64` for the
last steps (R153). Constants and steps that the spec marks K3, K4, K5 are log entry 8. -/

namespace Sys2Proof.Machine

/-- `C1_32` (R142, K3). -/
def m3C1x32 : BitVec 32 := 0xCC9E2D51#32
/-- `C2_32` (R142, K3). -/
def m3C2x32 : BitVec 32 := 0x1B873593#32
/-- `N_32` (R142, K3). -/
def m3Nx32 : BitVec 32 := 0xE6546B64#32
/-- `C1_64` (R142). -/
def m3C1x64 : BitVec 64 := 0x87C37B91114253D5#64
/-- `C2_64` (R142). -/
def m3C2x64 : BitVec 64 := 0x4CF5AD432745937F#64

/-- The value `M3_32` hands to the finalizer, `h ^ 4` (R143). -/
def m3Body32 (key seed : BitVec 32) : BitVec 32 :=
  let k := (key * m3C1x32).rotateLeft 15 * m3C2x32
  let h := (seed ^^^ k).rotateLeft 13
  (h * 5#32 + m3Nx32) ^^^ 4#32

/-- `M3_32(key, seed)` (R143). -/
def m3Hash32 (key seed : BitVec 32) : BitVec 32 := fmix32 (m3Body32 key seed)

/-- The mixing line of `k1` (R144, R147). -/
def m3MixK1 (k : BitVec 64) : BitVec 64 := (k * m3C1x64).rotateLeft 31 * m3C2x64

/-- The mixing line of `k2` (R146, R147, K5). -/
def m3MixK2 (k : BitVec 64) : BitVec 64 := (k * m3C2x64).rotateLeft 33 * m3C1x64

/-- The two lanes `h1`, `h2`. -/
structure Lanes where
  /-- lane `h1` -/
  h1 : BitVec 64
  /-- lane `h2` -/
  h2 : BitVec 64
deriving DecidableEq, Repr

/-- `h1 += h2; h2 += h1`, the second with the new `h1` (R144, R148). -/
def Lanes.cross (l : Lanes) : Lanes := ⟨l.h1 + l.h2, l.h2 + (l.h1 + l.h2)⟩

/-- `{h1, h2}` packed with `h1` in bits 127:64 (R144, R148). -/
def Lanes.packed (l : Lanes) : BitVec 128 := l.h1 ++ l.h2

/-- Both lanes xored with the length and cross-mixed once: what the host hands to `FMIX64` (R148, R153). -/
def Lanes.beforeFinalizer (l : Lanes) (len : BitVec 64) : Lanes :=
  Lanes.cross ⟨l.h1 ^^^ len, l.h2 ^^^ len⟩

/-- Finalization and packing (R148). -/
def Lanes.finish (l : Lanes) (len : BitVec 64) : BitVec 128 :=
  let m := l.beforeFinalizer len
  (Lanes.cross ⟨fmix64 m.h1, fmix64 m.h2⟩).packed

/-- `M3_64_128(key, seed)` (R144): the key is one 8-byte tail, `h2` is untouched by it. -/
def m3Hash64 (key seed : BitVec 64) : BitVec 128 :=
  Lanes.finish ⟨seed ^^^ m3MixK1 key, seed⟩ 8#64

/-- The little-endian word of a byte list: the sum of `d[j] * 2^(8j)` (R145). -/
def leWord : List (BitVec 8) → BitVec 64
  | [] => 0#64
  | b :: d => b.setWidth 64 + (leWord d <<< 8)

/-- One 16-byte block folded in (R146, K5). -/
def m3Block (l : Lanes) (k1 k2 : BitVec 64) : Lanes :=
  let h1 := ((l.h1 ^^^ m3MixK1 k1).rotateLeft 27 + l.h2) * 5#64 + 0x52DCE729#64
  let h2 := ((l.h2 ^^^ m3MixK2 k2).rotateLeft 31 + h1) * 5#64 + 0x38495AB5#64
  ⟨h1, h2⟩

/-- The first `n` full blocks of `d` folded in (R145, R146). -/
def m3Blocks (d : List (BitVec 8)) (l : Lanes) : Nat → Lanes
  | 0 => l
  | i + 1 =>
    m3Block (m3Blocks d l i) (leWord ((d.drop (16 * i)).take 8)) (leWord ((d.drop (16 * i + 8)).take 8))

/-- The bytes `lo`, ..., `hi - 1` of the tail assembled from the highest index down, byte `j` shifted left by
`8 * (j - lo)` (R147, K5 for `j >= 8`). -/
def m3Assemble (tail : List (BitVec 8)) (lo hi : Nat) : BitVec 64 :=
  (List.range' lo (hi - lo)).reverse.foldl (fun k j => k ^^^ ((tail.getD j 0#8).setWidth 64 <<< (8 * (j - lo)))) 0#64

/-- The tail folded in: 9 to 15 bytes fold into `h2` first, then 1 to 8 into `h1` (R147). -/
def m3Tail (tail : List (BitVec 8)) (l : Lanes) : Lanes :=
  let t := tail.length
  let h2 := if 9 ≤ t then l.h2 ^^^ m3MixK2 (m3Assemble tail 8 t) else l.h2
  let h1 := if 1 ≤ t then l.h1 ^^^ m3MixK1 (m3Assemble tail 0 (min t 8)) else l.h1
  ⟨h1, h2⟩

/-- `M3_BUF_128(d, len, seed)` with `len` the number of bytes of `d` (R145 to R149). -/
def m3HashBuf (d : List (BitVec 8)) (seed : BitVec 64) : BitVec 128 :=
  let n := d.length / 16
  (m3Tail (d.drop (16 * n)) (m3Blocks d ⟨seed, seed⟩ n)).finish (BitVec.ofNat 64 d.length)

/-- The bytes of a 64-bit key, byte 0 first (R150). -/
def keyBytes (k : BitVec 64) : List (BitVec 8) := (List.range 8).map (byteOf k)

/-- `M3_32` with the default seed, an OPEN parameter (R141). -/
def m3Hash32Default (key : BitVec 32) : BitVec 32 := m3Hash32 key Config.m3Seed32

/-- `M3_64_128` with the default seed, an OPEN parameter (R141). -/
def m3Hash64Default (key : BitVec 64) : BitVec 128 := m3Hash64 key Config.m3Seed64

/-- `M3_BUF_128` with the default seed, an OPEN parameter (R141). -/
def m3HashBufDefault (d : List (BitVec 8)) : BitVec 128 := m3HashBuf d Config.m3Seed64

end Sys2Proof.Machine
end

