-- ==== Sys2Proof/Safety.lean ====
section
/-! DEFINITION. What counts as a safe run of the block, in the terms claims use: the invariant its registers and table
meet in every reachable state, and what it means that one state has kept something of another. -/

namespace Sys2Proof.Machine

/-- What holds of the registers and the table in every reachable state (10_state.md R26, R27, R28, R30, R34; log
entry 2 for the canonical form of the table). -/
structure Inv (s : State) : Prop where
  /-- `STATUS[63:2] = 0` always (R26) -/
  statusReserved : s.status.extractLsb' 2 62 = 0#62
  /-- `ECAUSE` holds a status code of R216 over zeros (R27) -/
  ecauseIsCode : ∃ e : Status, s.ecause = (statusCode e).setWidth 64
  /-- `ECMD[63:32] = 0` (R28) -/
  ecmdUpper : s.ecmd.extractLsb' 32 32 = 0#32
  /-- with no error recorded both record registers are 0 (R27, R28) -/
  recordClear : s.err = false → s.ecause = 0#64 ∧ s.ecmd = 0#64
  /-- a recorded error has a code other than `OK` (R26, R27) -/
  recordSet : s.err = true → s.ecause ≠ 0#64
  /-- `MULCFG` is legal, so `P <= W` (R30) -/
  mulcfgLegal : legalMulcfg s.mulcfg = true
  /-- `TABCFG` is legal, so `COLS` is 1, 4 or 8 (R34) -/
  tabcfgLegal : legalTabcfg s.tabcfg = true
  /-- the table memory is in its canonical form -/
  tableWf : Memory.wf s.table = true

/-- The recorded cause agrees with the recorded word: `ILLEGAL_CMD` is recorded exactly for a word that matches no row
of the opcode map (60_exceptions.md R217, "Decided from the word alone"; R224). -/
def RecordFitsWord (s : State) : Prop :=
  s.err = true →
    (s.ecause = (statusCode .illegalCmd).setWidth 64 ↔ matchingRows (s.ecmd.setWidth 32) = [])

/-- `t` has the configuration registers of `s`. -/
def SameConfig (s t : State) : Prop :=
  t.mulcfg = s.mulcfg ∧ t.mula = s.mula ∧ t.muln = s.muln ∧ t.tabcfg = s.tabcfg ∧ t.tabseed = s.tabseed

/-- `t` has the error record of `s`. -/
def SameRecord (s t : State) : Prop :=
  t.err = s.err ∧ t.ecause = s.ecause ∧ t.ecmd = s.ecmd

/-- Every table cell of `t` reads as in `s`, all 64 bits. -/
def SameCells (s t : State) : Prop :=
  ∀ c r : Nat, t.cell c r = s.cell c r

/-- `t` has the pending inputs, the count of resets and the count of draws of `s`. -/
def SameEnvironment (s t : State) : Prop :=
  t.inputs = s.inputs ∧ t.resets = s.resets ∧ t.draws = s.draws

/-- The one response given on the way from `s` to `t`. -/
def Answered (s t : State) (st : Status) (data : Data) : Prop :=
  t.responses = s.responses ++ [⟨st, data⟩]

/-- The hash commands (10_state.md R20). -/
def isHash : Instr → Bool
  | .csrr _ _ => false
  | .csrw _ _ => false
  | .clrerr _ => false
  | .mulh _ => true
  | .fmix32 _ => true
  | .fmix64 _ => true
  | .tabh _ => true
  | .tabbegin _ => false
  | .tabw _ _ _ => false
  | .tabrd _ _ _ => false
  | .tabrand _ => false
  | .tabcommit _ => false

/-- The commands that read: the hash commands, `CSRR` and `TABRD` (20_memory.md R67). -/
def isRead : Instr → Bool
  | .csrr _ _ => true
  | .csrw _ _ => false
  | .clrerr _ => false
  | .mulh _ => true
  | .fmix32 _ => true
  | .fmix64 _ => true
  | .tabh _ => true
  | .tabbegin _ => false
  | .tabw _ _ _ => false
  | .tabrd _ _ _ => true
  | .tabrand _ => false
  | .tabcommit _ => false

/-- The commands that write table cells (10_state.md R37). -/
def writesCells : Instr → Bool
  | .csrr _ _ => false
  | .csrw _ _ => false
  | .clrerr _ => false
  | .mulh _ => false
  | .fmix32 _ => false
  | .fmix64 _ => false
  | .tabh _ => false
  | .tabbegin _ => false
  | .tabw _ _ _ => true
  | .tabrd _ _ _ => false
  | .tabrand _ => true
  | .tabcommit _ => false

/-- An input that ends the life of the tabulation instance: the reset event or the command `TABBEGIN` (10_state.md
R39). -/
def endsInstance : Input → Prop
  | .reset => True
  | .command c => ∃ opa, decode c = .ok (.tabbegin opa)

/-- An input that replaces the multiplicative instance: the reset event, or a `CSRW` to `MULCFG`, `MULA` or `MULN` that
is accepted (10_state.md R38, 41_multiplicative.md R119). -/
def replacesMulInstance : Input → Prop
  | .reset => True
  | .command c => ∃ csr v, decode c = .ok (.csrw csr v) ∧
      (csr = 0x11#8 ∨ csr = 0x12#8 ∨ (csr = 0x10#8 ∧ legalMulcfg v = true))

/-- `n` steps from `s`; the steps of this block always answer a next state (00_scope.md R18). -/
def runSteps : Nat → State → Host.Outcome State Fault Refusal
  | 0, s => .next s
  | n + 1, s =>
    match step s with
    | .next t => runSteps n t
    | .fault r => .fault r
    | .refused r => .refused r

end Sys2Proof.Machine
end

