-- ==== Sys2Proof/Certificates/Slice0/Obligations.lean ====
section
/-! DEFINITION. The statements for the provers, each with the rule of spec/ it formalises. Where a statement rests on a
choice of the model, its docstring names the log entry. -/

open Sys2Proof Sys2Proof.Machine

/-! ## Encoding (30_encoding.md) -/

/-- R82 to R84: the word of every instruction is well formed and decodes to that instruction, every field and the
operand at every value. -/
def Obligations.DecodeOfEncode : Prop :=
  ∀ i : Instr, (encode i).wellFormed = true ∧ decode (encode i) = .ok i

/-- R82 to R84: no bit of a command is dropped in decoding; encoding the decoded instruction gives the command back. -/
def Obligations.EncodeOfDecode : Prop :=
  ∀ (c : Command) (i : Instr), decode c = .ok i → encode i = c

/-- Derived in R93 from R84 and R86 (the spec marks the inference as its own): the twelve match and mask pairs are
pairwise disjoint; every word with every operand decodes to the one instruction whose row it matches, or matches no row
and is refused; decoding depends on the word alone. -/
def Obligations.EveryWordIsOneCommandOrIllegal : Prop :=
  (opcodeTable.Pairwise fun a b => ∀ w : CmdWord, ¬ (a.matchesWord w = true ∧ b.matchesWord w = true)) ∧
  (∀ c : Command,
    (∃ i, decode c = .ok i ∧ (matchingRows c.word).map (·.mnemonic) = [i.mnemonic]) ∨
    (∃ e, decode c = .error e ∧ matchingRows c.word = [])) ∧
  (∀ (w : CmdWord) (o o' : Data) (i : Instr), decode ⟨w, o⟩ = .ok i →
    ∃ j, decode ⟨w, o'⟩ = .ok j ∧ j.word = i.word ∧ j.mnemonic = i.mnemonic ∧ j.operand = o')

/-- The worked encodings of R92, legal and illegal, with any operand (the spec derives them from R82 to R84 and marks
the inference as its own). -/
def Obligations.WorkedEncodingsDecode : Prop :=
  ∀ o : Data,
    decode ⟨0x20000000#32, o⟩ = .ok (.fmix32 o) ∧ decode ⟨0x21000000#32, o⟩ = .ok (.fmix64 o) ∧
    decode ⟨0x10000000#32, o⟩ = .ok (.mulh o) ∧ decode ⟨0x30000000#32, o⟩ = .ok (.tabh o) ∧
    decode ⟨0x31000000#32, o⟩ = .ok (.tabbegin o) ∧ decode ⟨0x34000000#32, o⟩ = .ok (.tabrand o) ∧
    decode ⟨0x35000000#32, o⟩ = .ok (.tabcommit o) ∧ decode ⟨0x03000000#32, o⟩ = .ok (.clrerr o) ∧
    decode ⟨0x01010000#32, o⟩ = .ok (.csrr 0x01#8 o) ∧ decode ⟨0x02100000#32, o⟩ = .ok (.csrw 0x10#8 o) ∧
    decode ⟨0x02210000#32, o⟩ = .ok (.csrw 0x21#8 o) ∧
    decode ⟨0x32004100#32, o⟩ = .ok (.tabw 0#3 0x41#8 o) ∧
    decode ⟨0x3207FF00#32, o⟩ = .ok (.tabw 7#3 255#8 o) ∧
    decode ⟨0x33031000#32, o⟩ = .ok (.tabrd 3#3 16#8 o) ∧
    decode ⟨0x00000000#32, o⟩ = .error (.unassignedOpcode 0x00#8) ∧
    decode ⟨0x20000001#32, o⟩ = .error (.reservedBits 0x20#8) ∧
    decode ⟨0x32084100#32, o⟩ = .error (.reservedBits 0x32#8) ∧
    decode ⟨0x01010001#32, o⟩ = .error (.reservedBits 0x01#8) ∧
    decode ⟨0x36000000#32, o⟩ = .error (.unassignedOpcode 0x36#8)

/-- R85: a word whose opcode is assigned but whose zero field is not all 0 matches no row, and the decoder refuses it:
format N, format C, format T. -/
def Obligations.ReservedBitsMakeWordIllegal : Prop :=
  ∀ (w : CmdWord) (o : Data),
    (opcodeOf w ∈ [0x03#8, 0x10#8, 0x20#8, 0x21#8, 0x30#8, 0x31#8, 0x34#8, 0x35#8] →
      w.extractLsb' 0 24 ≠ 0#24 → matchingRows w = [] ∧ ∃ e, decode ⟨w, o⟩ = .error e) ∧
    (opcodeOf w ∈ [0x01#8, 0x02#8] →
      w.extractLsb' 0 16 ≠ 0#16 → matchingRows w = [] ∧ ∃ e, decode ⟨w, o⟩ = .error e) ∧
    (opcodeOf w ∈ [0x32#8, 0x33#8] →
      (w.extractLsb' 19 5 ≠ 0#5 ∨ w.extractLsb' 0 8 ≠ 0#8) →
        matchingRows w = [] ∧ ∃ e, decode ⟨w, o⟩ = .error e)

/-! ## Steps, inputs and reset (00_scope.md, 60_exceptions.md, 70_reset_and_hazards.md) -/

/-- A step runs the decoded instruction: when the oldest pending input is a command that decodes to `i`, the step is
`exec i` on the state with that input taken. The queue of inputs is the model's (log entry 4). -/
def Obligations.StepRunsDecodedInstruction : Prop :=
  ∀ (s : State) (c : Command) (rest : List Input) (i : Instr),
    s.inputs = .command c :: rest → decode c = .ok i → step s = exec i (s.setInputs rest)

/-- R217, R86: a command is answered `ILLEGAL_CMD` (code 1) exactly when its word matches no row of the opcode map; then
nothing but the error record changes. -/
def Obligations.IllegalWordIsRefused : Prop :=
  statusCode .illegalCmd = 0x1#4 ∧
  ∀ (s : State) (c : Command) (rest : List Input), s.inputs = .command c :: rest →
    ∃ t st d, step s = .next t ∧ Answered s t st d ∧ (st = .illegalCmd ↔ matchingRows c.word = []) ∧
      (matchingRows c.word = [] →
        d = 0#64 ∧ SameConfig s t ∧ SameCells s t ∧ t.tabrdy = s.tabrdy ∧ t.inputs = rest ∧
          t.resets = s.resets ∧ t.draws = s.draws)

/-- R80, R18: every step answers a next state; every command is answered with exactly one response, given after those
before it, and is taken from the pending inputs; a reset event is answered with none. -/
def Obligations.EveryCommandHasOneResponse : Prop :=
  (∀ s : State, ∃ t, step s = .next t) ∧
  (∀ (s t : State) (c : Command) (rest : List Input), s.inputs = .command c :: rest → step s = .next t →
    t.inputs = rest ∧ ∃ st d, Answered s t st d) ∧
  (∀ (s t : State) (rest : List Input), s.inputs = .reset :: rest → step s = .next t →
    t.inputs = rest ∧ t.responses = s.responses)

/-- R234, R250: with nothing presented the block waits and holds its state. That waiting is a step is the model's choice
(log entry 4). -/
def Obligations.BlockWaitsWithoutInput : Prop :=
  ∀ s : State, s.inputs = [] → step s = .next s

/-- R240, R42: the reset event, from any state, puts every register at its reset value; every cell then reads as its
free value of the new reset (log entry 1); inputs, responses and draws are the environment's (log entries 3 to 5). -/
def Obligations.ResetEventRestoresRegisters : Prop :=
  ∀ (s : State) (rest : List Input), s.inputs = .reset :: rest →
    ∃ t, step s = .next t ∧
      t.status = 0x0#64 ∧ t.ecause = 0x0#64 ∧ t.ecmd = 0x0#64 ∧ t.mulcfg = 0x420#64 ∧ t.mula = 0x0#64 ∧
      t.muln = 0x0#64 ∧ t.tabcfg = 0x004#64 ∧ t.tabseed = 0x0#64 ∧
      (∀ c r : Nat, t.cell c r = Config.resetCell (s.resets + 1) (256 * c + r)) ∧
      t.inputs = rest ∧ t.responses = s.responses ∧ t.draws = s.draws

/-- R241, R243, R175: after a reset event `MULH` computes the default instance (32 bits, Fibonacci family, `p = W`, the
multiplier an OPEN parameter, log entry 6), `TABH` is refused, and `TABCOMMIT` at once makes the instance with `COLS =
4`, `W = 32`, seed 0. -/
def Obligations.ResetLeavesDefaultInstances : Prop :=
  ∀ (s : State) (rest : List Input) (k o : Data), s.inputs = .reset :: rest →
    ∃ t, step s = .next t ∧
      exec (.mulh k) t =
        .next (t.addResponse ⟨.ok, BitVec.ofNat 64 ((k.toNat % 2 ^ 32) * Config.aFib32.toNat % 2 ^ 32)⟩) ∧
      exec (.tabh k) t = raise .tabNotReady 0x30000000#32 t ∧
      ∃ u, exec (.tabcommit o) t = .next u ∧ Answered t u .ok 0#64 ∧ u.tabrdy = true ∧
        tabcfgCols u.tabcfg = 4 ∧ tabcfgWidth u.tabcfg = .w32 ∧ u.tabseed = 0#64

/-- R42: the registers right after reset, read by address as `CSRR` reads them. -/
def Obligations.ResetStateHasStatedValues : Prop :=
  ∀ o : Data,
    [0x00#8, 0x01#8, 0x02#8, 0x03#8, 0x10#8, 0x11#8, 0x12#8, 0x20#8, 0x21#8].map
        (fun a => match exec (.csrr a o) State.reset with
          | .next t => t.responses
          | .fault _ => []
          | .refused _ => []) =
      [ [⟨.ok, 0x4D334D5800080701#64⟩], [⟨.ok, 0x0#64⟩], [⟨.ok, 0x0#64⟩], [⟨.ok, 0x0#64⟩], [⟨.ok, 0x420#64⟩],
        [⟨.ok, 0x0#64⟩], [⟨.ok, 0x0#64⟩], [⟨.ok, 0x004#64⟩], [⟨.ok, 0x0#64⟩] ]

/-! ## The invariant -/

/-- The reset state meets the invariant, and its (empty) error record fits its word (R26 to R30, R34, R42). -/
def Obligations.ResetMeetsInvariant : Prop := Inv State.reset ∧ RecordFitsWord State.reset

/-- Every step keeps the invariant: reserved bits of `STATUS` and `ECMD` zero, `ECAUSE` a status code and set exactly
with `ERR`, `MULCFG` and `TABCFG` legal (so `P <= W` and `COLS` in 1, 4, 8), the table in canonical form (R26, R27, R28,
R30, R34; that this holds in every reachable state the spec derives and marks as its own inference; log entry 2). -/
def Obligations.StepKeepsInvariant : Prop :=
  ∀ s t : State, Inv s → step s = .next t → Inv t

/-- Every step keeps the record fitting: `ECAUSE` says `ILLEGAL_CMD` exactly when `ECMD` holds a word that matches no
row of the opcode map (R217, R224). -/
def Obligations.StepKeepsRecordFittingWord : Prop :=
  ∀ s t : State, RecordFitsWord s → step s = .next t → RecordFitsWord t

/-! ## System commands (45_system.md) and the error record (60_exceptions.md) -/

/-- R200: `CSRR` answers the named register and changes nothing; an unimplemented address is error entry `BAD_CSR`. -/
def Obligations.CsrrReadsRegister : Prop :=
  ∀ (csr : CsrAddr) (opa : Data) (s : State),
    exec (.csrr csr opa) s =
      if csr = 0x00#8 then .next (s.addResponse ⟨.ok, 0x4D334D5800080701#64⟩)
      else if csr = 0x01#8 then .next (s.addResponse ⟨.ok, s.status⟩)
      else if csr = 0x02#8 then .next (s.addResponse ⟨.ok, s.ecause⟩)
      else if csr = 0x03#8 then .next (s.addResponse ⟨.ok, s.ecmd⟩)
      else if csr = 0x10#8 then .next (s.addResponse ⟨.ok, s.mulcfg⟩)
      else if csr = 0x11#8 then .next (s.addResponse ⟨.ok, s.mula⟩)
      else if csr = 0x12#8 then .next (s.addResponse ⟨.ok, s.muln⟩)
      else if csr = 0x20#8 then .next (s.addResponse ⟨.ok, s.tabcfg⟩)
      else if csr = 0x21#8 then .next (s.addResponse ⟨.ok, s.tabseed⟩)
      else raise .badCsr (0x01#8 ++ csr ++ 0#16) s

/-- R201: `CSRW` by its pseudocode, the checks in its order, legality spelled out in the register's bits. -/
def Obligations.CsrwFollowsItsChecks : Prop :=
  ∀ (csr : CsrAddr) (opa : Data) (s : State),
    exec (.csrw csr opa) s =
      if csr ∉ [0x00#8, 0x01#8, 0x02#8, 0x03#8, 0x10#8, 0x11#8, 0x12#8, 0x20#8, 0x21#8] then
        raise .badCsr (0x02#8 ++ csr ++ 0#16) s
      else if csr ∈ [0x00#8, 0x01#8, 0x02#8, 0x03#8] then raise .badCsr (0x02#8 ++ csr ++ 0#16) s
      else if csr ∈ [0x20#8, 0x21#8] ∧ s.tabrdy = true then raise .tabLocked (0x02#8 ++ csr ++ 0#16) s
      else if csr = 0x10#8 ∧ ¬ (opa.extractLsb' 12 52 = 0#52 ∧ opa.getLsbD 7 = false ∧
          (opa.extractLsb' 0 7).toNat ≤ (if opa.getLsbD 8 then 64 else 32)) then
        raise .badValue (0x02#8 ++ csr ++ 0#16) s
      else if csr = 0x20#8 ∧ ¬ (opa.extractLsb' 9 55 = 0#55 ∧ opa.extractLsb' 4 4 = 0#4 ∧
          (opa.extractLsb' 0 4).toNat ∈ [1, 4, 8]) then
        raise .badValue (0x02#8 ++ csr ++ 0#16) s
      else if csr = 0x10#8 then .next ((s.setMulcfg opa).addResponse ⟨.ok, 0#64⟩)
      else if csr = 0x11#8 then .next ((s.setMula opa).addResponse ⟨.ok, 0#64⟩)
      else if csr = 0x12#8 then .next ((s.setMuln opa).addResponse ⟨.ok, 0#64⟩)
      else if csr = 0x20#8 then .next ((s.setTabcfg opa).addResponse ⟨.ok, 0#64⟩)
      else .next ((s.setTabseed opa).addResponse ⟨.ok, 0#64⟩)

/-- R29 to R35, R201: where `CSRW` is accepted: `MULA` and `MULN` always, `MULCFG` with a legal value, `TABCFG` with a
legal value and `TABSEED` with any value while `TABRDY = 0`; the register takes the value, all else stays. -/
def Obligations.CsrwWritesNamedRegister : Prop :=
  ∀ (opa : Data) (s : State),
    exec (.csrw 0x11#8 opa) s = .next ((s.setMula opa).addResponse ⟨.ok, 0#64⟩) ∧
    exec (.csrw 0x12#8 opa) s = .next ((s.setMuln opa).addResponse ⟨.ok, 0#64⟩) ∧
    (legalMulcfg opa = true → exec (.csrw 0x10#8 opa) s = .next ((s.setMulcfg opa).addResponse ⟨.ok, 0#64⟩)) ∧
    (s.tabrdy = false → legalTabcfg opa = true →
      exec (.csrw 0x20#8 opa) s = .next ((s.setTabcfg opa).addResponse ⟨.ok, 0#64⟩)) ∧
    (s.tabrdy = false → exec (.csrw 0x21#8 opa) s = .next ((s.setTabseed opa).addResponse ⟨.ok, 0#64⟩))

/-- R203: `CLRERR` clears `ERR`, `ECAUSE`, `ECMD`, leaves `TABRDY` and everything else, and answers 0; with no error
recorded it changes nothing. -/
def Obligations.ClrerrClearsRecord : Prop :=
  ∀ (opa : Data) (s : State),
    ∃ t, exec (.clrerr opa) s = .next t ∧ Answered s t .ok 0#64 ∧
      t.err = false ∧ t.ecause = 0#64 ∧ t.ecmd = 0#64 ∧ t.tabrdy = s.tabrdy ∧
      t.status.extractLsb' 2 62 = s.status.extractLsb' 2 62 ∧
      SameConfig s t ∧ SameCells s t ∧ SameEnvironment s t ∧
      (s.err = false → s.ecause = 0#64 → s.ecmd = 0#64 → t = s.addResponse ⟨.ok, 0#64⟩)

/-- R224: error entry records code and word when `ERR = 0` and keeps the record when `ERR = 1`; the response is the code
with data 0; nothing else changes. -/
def Obligations.ErrorEntryRecordsFirstError : Prop :=
  ∀ (e : Status) (w : CmdWord) (s : State),
    ∃ t, raise e w s = .next t ∧ Answered s t e 0#64 ∧
      (s.err = false → t.err = true ∧ t.ecause = (statusCode e).setWidth 64 ∧ t.ecmd = w.setWidth 64) ∧
      (s.err = true → SameRecord s t) ∧
      t.tabrdy = s.tabrdy ∧ t.status.extractLsb' 2 62 = s.status.extractLsb' 2 62 ∧
      SameConfig s t ∧ SameCells s t ∧ SameEnvironment s t

/-- R224, over every command: the state after a refused command equals the state before it apart from the three record
fields; the record takes the response's code and the command's own word if `ERR` was 0, else it stays; the data is 0. -/
def Obligations.RefusedCommandChangesOnlyRecord : Prop :=
  ∀ (s t : State) (c : Command) (rest : List Input) (st : Status) (d : Data),
    s.inputs = .command c :: rest → step s = .next t → Answered s t st d → st ≠ .ok →
      statusCode st ≠ 0x0#4 ∧ d = 0#64 ∧
      (s.err = true → SameRecord s t) ∧
      (s.err = false → t.err = true ∧ t.ecause = (statusCode st).setWidth 64 ∧ t.ecmd = c.word.setWidth 64) ∧
      t.tabrdy = s.tabrdy ∧ t.status.extractLsb' 2 62 = s.status.extractLsb' 2 62 ∧
      SameConfig s t ∧ SameCells s t ∧ t.inputs = rest ∧ t.resets = s.resets ∧ t.draws = s.draws

/-- R225: a recorded error stays through every step that is neither the reset event nor `CLRERR`; and it blocks nothing:
every command is answered with the same status and has the same effect on registers, phase and cells whether an error is
recorded or not, and with the same data unless it is a `CSRR` that reads the record itself. -/
def Obligations.RecordStaysAndBlocksNothing : Prop :=
  (∀ s t : State, step s = .next t → s.err = true →
    (∀ rest, s.inputs ≠ .reset :: rest) →
    (∀ c rest opa, s.inputs = .command c :: rest → decode c ≠ .ok (.clrerr opa)) →
      SameRecord s t) ∧
  (∀ (i : Instr) (s t t' : State) (e : Status) (w : CmdWord),
    exec i s = .next t → exec i (s.recordError e w) = .next t' →
      ∃ st d d', Answered s t st d ∧ Answered (s.recordError e w) t' st d' ∧
        ((∀ csr ∈ [0x01#8, 0x02#8, 0x03#8], ∀ o, i ≠ .csrr csr o) → d' = d) ∧
        t'.tabrdy = t.tabrdy ∧ SameConfig t t' ∧ SameCells t t')

/-- R218 to R222: each refusal of a decoded command is answered exactly in its rule's cases, with its code. -/
def Obligations.StatusTellsItsCause : Prop :=
  [Status.badCsr, .badValue, .tabNotReady, .tabLocked, .badIndex].map statusCode =
    [0x2#4, 0x3#4, 0x4#4, 0x5#4, 0x6#4] ∧
  ∀ (i : Instr) (s t : State) (st : Status) (d : Data), exec i s = .next t → Answered s t st d →
    st ≠ .illegalCmd ∧
    (st = .badCsr ↔
      (∃ csr o, i = .csrr csr o ∧
        csr ∉ [0x00#8, 0x01#8, 0x02#8, 0x03#8, 0x10#8, 0x11#8, 0x12#8, 0x20#8, 0x21#8]) ∨
      (∃ csr o, i = .csrw csr o ∧ csr ∉ [0x10#8, 0x11#8, 0x12#8, 0x20#8, 0x21#8])) ∧
    (st = .badValue ↔
      (∃ v, i = .csrw 0x10#8 v ∧ legalMulcfg v = false) ∨
      (∃ v, i = .csrw 0x20#8 v ∧ s.tabrdy = false ∧ legalTabcfg v = false)) ∧
    (st = .tabNotReady ↔ s.tabrdy = false ∧ ((∃ o, i = .tabh o) ∨ ∃ col row o, i = .tabrd col row o)) ∧
    (st = .tabLocked ↔ s.tabrdy = true ∧
      ((∃ col row o, i = .tabw col row o) ∨ (∃ o, i = .tabrand o) ∨ (∃ o, i = .tabcommit o) ∨
        (∃ o, i = .csrw 0x20#8 o) ∨ ∃ o, i = .csrw 0x21#8 o)) ∧
    (st = .badIndex ↔ ∃ col row o, tabcfgCols s.tabcfg ≤ col.toNat ∧
      (s.tabrdy = false ∧ i = .tabw col row o ∨ s.tabrdy = true ∧ i = .tabrd col row o))

/-- R236: `FMIX32`, `FMIX64`, `MULH`, `TABBEGIN` and `CLRERR` are answered `OK` in every state; `TABH` is answered `OK`
or `TAB_NOT_READY`. -/
def Obligations.NeverRefusedCommands : Prop :=
  ∀ (opa : Data) (s : State),
    (∀ i, i = .fmix32 opa ∨ i = .fmix64 opa ∨ i = .mulh opa ∨ i = .tabbegin opa ∨ i = .clrerr opa →
      ∃ t d, exec i s = .next t ∧ Answered s t .ok d) ∧
    (∃ t st d, exec (.tabh opa) s = .next t ∧ Answered s t st d ∧ (st = .ok ∨ st = .tabNotReady))

/-- R223: the table phase is checked before the column and before the value, the register's access before the phase. -/
def Obligations.ChecksFollowPriority : Prop :=
  ∀ (s : State) (col : Col) (row : Row) (opa : Data),
    (s.tabrdy = true →
      exec (.csrw 0x20#8 opa) s = raise .tabLocked 0x02200000#32 s ∧
      exec (.csrw 0x21#8 opa) s = raise .tabLocked 0x02210000#32 s ∧
      exec (.csrw 0x01#8 opa) s = raise .badCsr 0x02010000#32 s ∧
      exec (.tabw col row opa) s = raise .tabLocked (0x32#8 ++ 0#5 ++ col ++ row ++ 0#8) s) ∧
    (s.tabrdy = false →
      exec (.tabrd col row opa) s = raise .tabNotReady (0x33#8 ++ 0#5 ++ col ++ row ++ 0#8) s)

/-- R30, R219: a write to `MULCFG` is accepted exactly when the reserved bits are 0 and `P <= W`, written here in
arithmetic on the value; otherwise it is answered `BAD_VALUE` and `MULCFG` keeps its value. -/
def Obligations.MulcfgAcceptedExactlyWhenLegal : Prop :=
  ∀ (v : Data) (s : State), ∃ t, exec (.csrw 0x10#8 v) s = .next t ∧
    if v.toNat < 2 ^ 12 ∧ v.toNat / 2 ^ 7 % 2 = 0 ∧
        v.toNat % 2 ^ 7 ≤ (if v.toNat / 2 ^ 8 % 2 = 1 then 64 else 32) then
      t.mulcfg = v ∧ Answered s t .ok 0#64
    else t.mulcfg = s.mulcfg ∧ Answered s t .badValue 0#64

/-- R34, R219: in the building phase a write to `TABCFG` is accepted exactly when it is `COLS` in 1, 4, 8 with or
without `W64` and nothing else; otherwise it is answered `BAD_VALUE` and `TABCFG` keeps its value. -/
def Obligations.TabcfgAcceptedExactlyWhenLegal : Prop :=
  ∀ (v : Data) (s : State), s.tabrdy = false → ∃ t, exec (.csrw 0x20#8 v) s = .next t ∧
    if v.toNat ∈ [0x001, 0x004, 0x008, 0x101, 0x104, 0x108] then t.tabcfg = v ∧ Answered s t .ok 0#64
    else t.tabcfg = s.tabcfg ∧ Answered s t .badValue 0#64

/-- R68 (a): a `CSRR` right after an accepted `CSRW` to the same register answers the written value. -/
def Obligations.CsrwThenCsrrReadsBack : Prop :=
  ∀ (csr : CsrAddr) (v o d : Data) (s t : State),
    exec (.csrw csr v) s = .next t → Answered s t .ok d →
      exec (.csrr csr o) t = .next (t.addResponse ⟨.ok, v⟩)

/-- R67: a successful `CSRR`, `TABRD` or hash command changes no state but the list of responses, and repeated at once
it gives the same response; a refused one has the effect of any refused command, the error record. -/
def Obligations.ReadsHaveNoSideEffects : Prop :=
  ∀ (i : Instr) (s t : State) (st : Status) (d : Data), isRead i = true → exec i s = .next t → Answered s t st d →
    (st = .ok → t = s.addResponse ⟨.ok, d⟩ ∧ exec i t = .next (t.addResponse ⟨.ok, d⟩)) ∧
    (st ≠ .ok → t = (s.recordError st i.word).addResponse ⟨st, 0#64⟩)

/-- R2, R26, R201, the register frame of all twelve instructions: each configuration register is written only by an
accepted `CSRW` that names it, `TABRDY` only by `TABBEGIN` and `TABCOMMIT`, the reserved bits of `STATUS` never; a draw
is made only by `TABRAND`; pending inputs and the count of resets never change in `exec`. -/
def Obligations.RegistersWrittenOnlyByTheirCommands : Prop :=
  ∀ (i : Instr) (s t : State), exec i s = .next t →
    (t.mulcfg = s.mulcfg ∨ i = .csrw 0x10#8 t.mulcfg) ∧
    (t.mula = s.mula ∨ i = .csrw 0x11#8 t.mula) ∧
    (t.muln = s.muln ∨ i = .csrw 0x12#8 t.muln) ∧
    (t.tabcfg = s.tabcfg ∨ i = .csrw 0x20#8 t.tabcfg) ∧
    (t.tabseed = s.tabseed ∨ i = .csrw 0x21#8 t.tabseed) ∧
    (t.tabrdy = s.tabrdy ∨ (∃ o, i = .tabbegin o ∧ t.tabrdy = false) ∨
      (∃ o, i = .tabcommit o ∧ t.tabrdy = true)) ∧
    t.status.extractLsb' 2 62 = s.status.extractLsb' 2 62 ∧
    (t.draws = s.draws ∨ ∃ o, i = .tabrand o) ∧ t.inputs = s.inputs ∧ t.resets = s.resets

/-- R36, R37, R173, R174, the table frame of all twelve instructions: only `TABW` and `TABRAND` change cells; `TABW`
changes no cell but the one it names, `TABRAND` none of the columns from `COLS` on. -/
def Obligations.CellsWrittenOnlyByTabwAndTabrand : Prop :=
  ∀ (i : Instr) (s t : State), exec i s = .next t →
    (writesCells i = false → SameCells s t) ∧
    (∀ col row opa, i = .tabw col row opa →
      ∀ c r : Nat, r < 256 → (c ≠ col.toNat ∨ r ≠ row.toNat) → t.cell c r = s.cell c r) ∧
    (∀ opa, i = .tabrand opa → ∀ c r : Nat, tabcfgCols s.tabcfg ≤ c → t.cell c r = s.cell c r)

/-- R87: commands that do not use `opa` ignore it, and at `W = 32` the hash commands and `TABW` ignore its upper half:
same response, same state. -/
def Obligations.OperandBitsIgnored : Prop :=
  ∀ (s : State) (o o' : Data) (csr : CsrAddr) (col : Col) (row : Row),
    exec (.csrr csr o) s = exec (.csrr csr o') s ∧ exec (.clrerr o) s = exec (.clrerr o') s ∧
    exec (.tabbegin o) s = exec (.tabbegin o') s ∧ exec (.tabrd col row o) s = exec (.tabrd col row o') s ∧
    exec (.tabrand o) s = exec (.tabrand o') s ∧ exec (.tabcommit o) s = exec (.tabcommit o') s ∧
    (o.toNat % 2 ^ 32 = o'.toNat % 2 ^ 32 →
      exec (.fmix32 o) s = exec (.fmix32 o') s ∧
      (s.mulcfg.getLsbD 8 = false → exec (.mulh o) s = exec (.mulh o') s) ∧
      (s.tabcfg.getLsbD 8 = false →
        exec (.tabh o) s = exec (.tabh o') s ∧ exec (.tabw col row o) s = exec (.tabw col row o') s))

/-- Derived in R69 from R20 (the spec marks the inference as its own): any two successful hash commands commute: in the
other order each has the same response, and the two final states differ in nothing but the order of the two responses.
-/
def Obligations.HashCommandsCommute : Prop :=
  ∀ (i j : Instr) (s t u : State) (d e : Data), isHash i = true → isHash j = true →
    exec i s = .next t → Answered s t .ok d → exec j t = .next u → Answered t u .ok e →
      ∃ t' u', exec j s = .next t' ∧ Answered s t' .ok e ∧ exec i t' = .next u' ∧ Answered t' u' .ok d ∧
        { u with responses := s.responses } = { u' with responses := s.responses }

/-! ## The multiplicative mixer (41_multiplicative.md) -/

/-- R113 with R111: `MULH` under any legal `MULCFG`, by the rule's pseudocode in exact natural numbers: the multiplier
by `CSEL` and `W64`, the product mod `2^W`, then the top `p` bits or the range-scaled form. -/
def Obligations.MulhComputesHash : Prop :=
  ∀ (opa : Data) (s : State), legalMulcfg s.mulcfg = true →
    let W := if s.mulcfg.getLsbD 8 then 64 else 32
    let csel := (s.mulcfg.extractLsb' 10 2).toNat
    let A :=
      if s.mulcfg.getLsbD 8 then
        if csel = 0 then Config.aPrime64.toNat else if csel = 1 then Config.aFib64.toNat
        else if csel = 2 then Config.aFibPrime64.toNat else s.mula.toNat
      else
        if csel = 0 then Config.aPrime32.toNat else if csel = 1 then Config.aFib32.toNat
        else if csel = 2 then Config.aFibPrime32.toNat else s.mula.toNat % 2 ^ 32
    let prod := (opa.toNat % 2 ^ W) * A % 2 ^ W
    let h :=
      if s.mulcfg.getLsbD 9 then prod * (s.muln.toNat % 2 ^ W) / 2 ^ W
      else prod / 2 ^ (W - (s.mulcfg.extractLsb' 0 7).toNat)
    exec (.mulh opa) s = .next (s.addResponse ⟨.ok, BitVec.ofNat 64 h⟩)

/-- R114: in mode 0 the response is below `2^p`; it is the whole product for `p = W`, the product shifted right by `W -
p` for `1 <= p`, and 0 for `p = 0`. -/
def Obligations.MulhTopBits : Prop :=
  ∀ (k : Data) (s : State), legalMulcfg s.mulcfg = true → mulcfgMode s.mulcfg = false →
    let w := mulcfgWidth s.mulcfg
    let p := mulcfgP s.mulcfg
    let prod := mulProduct w k (mulSelect s.mulcfg s.mula)
    ∃ d, exec (.mulh k) s = .next (s.addResponse ⟨.ok, d⟩) ∧ d.toNat < 2 ^ p ∧
      (p = w.bits → d.toNat = prod) ∧ (1 ≤ p → d.toNat = prod >>> (w.bits - p)) ∧ (p = 0 → d = 0#64)

/-- The width narrowing law, two instances that differ in `P` only (R115, which the spec derives from R113 and marks as
its own inference). -/
def Obligations.NarrowedHashIsTopBits : Prop :=
  ∀ (k f g : Data) (s s' : State),
    mulcfgMode s.mulcfg = false → mulcfgMode s'.mulcfg = false →
    mulcfgWidth s'.mulcfg = mulcfgWidth s.mulcfg → mulcfgCsel s'.mulcfg = mulcfgCsel s.mulcfg → s'.mula = s.mula →
    let W := (mulcfgWidth s.mulcfg).bits
    let p := mulcfgP s'.mulcfg
    mulcfgP s.mulcfg = W → p ≤ W →
    exec (.mulh k) s = .next (s.addResponse ⟨.ok, f⟩) → exec (.mulh k) s' = .next (s'.addResponse ⟨.ok, g⟩) →
      (1 ≤ p → g = (f.extractLsb' (W - p) p).setWidth 64) ∧ (p = 0 → g = 0#64)

/-- R113, with what R116 derives from it (the spec marks the inference as its own): in mode 1 the response is the upper
`W` bits of the exact product with `N`, lies in `[0, N)`, is 0 for `N = 0`, and does not depend on `P`. -/
def Obligations.RangeScaledHashBelowBound : Prop :=
  ∀ (k : Data) (s : State), mulcfgMode s.mulcfg = true →
    let w := mulcfgWidth s.mulcfg
    let N := s.muln.toNat % 2 ^ w.bits
    let prod := mulProduct w k (mulSelect s.mulcfg s.mula)
    ∃ d, exec (.mulh k) s = .next (s.addResponse ⟨.ok, d⟩) ∧ d.toNat = prod * N / 2 ^ w.bits ∧
      (1 ≤ N → d.toNat < N) ∧ (N = 0 → d = 0#64) ∧
      (∀ v, mulcfgMode v = true → mulcfgWidth v = w → mulcfgCsel v = mulcfgCsel s.mulcfg →
        exec (.mulh k) (s.setMulcfg v) = .next ((s.setMulcfg v).addResponse ⟨.ok, d⟩))

/-- R118: the response of `MULH` is a function of the operand, `MULCFG`, `MULA` and `MULN`, and `MULH` changes no state;
so over any run whose inputs hold neither reset nor an accepted write of the three registers, `MULH` of a key has the
same response at the end as at the start. -/
def Obligations.MulhRepeatsUntilReconfigured : Prop :=
  (∀ (k : Data) (s s' : State), s'.mulcfg = s.mulcfg → s'.mula = s.mula → s'.muln = s.muln →
    ∃ d, exec (.mulh k) s = .next (s.addResponse ⟨.ok, d⟩) ∧ exec (.mulh k) s' = .next (s'.addResponse ⟨.ok, d⟩)) ∧
  (∀ (n : Nat) (s t : State) (k d : Data), (∀ x ∈ s.inputs.take n, ¬ replacesMulInstance x) →
    runSteps n s = .next t →
    exec (.mulh k) s = .next (s.addResponse ⟨.ok, d⟩) → exec (.mulh k) t = .next (t.addResponse ⟨.ok, d⟩))

/-- What R117 derives from R113 (the spec marks the inference as its own): key 0 and multiplier 0 give 0; at `W = 32`
the operand's upper half is ignored; with `A = 2` keys `k` and `k + 2^(W-1)` collide at `p = W`; with an odd `A`, a
preset included, and `p = W` in mode 0 the map from key to hash is a bijection on `W`-bit values. -/
def Obligations.MulhCornerCases : Prop :=
  ∀ s : State, legalMulcfg s.mulcfg = true →
    let w := mulcfgWidth s.mulcfg
    let A := mulSelect s.mulcfg s.mula
    exec (.mulh 0#64) s = .next (s.addResponse ⟨.ok, 0#64⟩) ∧
    (A = 0#64 → ∀ k, exec (.mulh k) s = .next (s.addResponse ⟨.ok, 0#64⟩)) ∧
    (w = .w32 → ∀ k k' : Data, k.toNat % 2 ^ 32 = k'.toNat % 2 ^ 32 → exec (.mulh k) s = exec (.mulh k') s) ∧
    (mulcfgMode s.mulcfg = false → mulcfgP s.mulcfg = w.bits →
      (A = 2#64 → ∀ k : Data, exec (.mulh (k + BitVec.ofNat 64 (2 ^ (w.bits - 1)))) s = exec (.mulh k) s) ∧
      (A.getLsbD 0 = true → ∀ h : Nat, h < 2 ^ w.bits →
        ∃! k : Nat, k < 2 ^ w.bits ∧
          exec (.mulh (BitVec.ofNat 64 k)) s = .next (s.addResponse ⟨.ok, BitVec.ofNat 64 h⟩)))

/-! ## The finalizer (42_murmur_finalizer.md) -/

/-- R131: `FMIX32`, its five steps written out on `opa[31:0]`; accepted in every state, nothing else changes. -/
def Obligations.Fmix32Result : Prop :=
  ∀ (opa : Data) (s : State),
    let x0 : BitVec 32 := opa.extractLsb' 0 32
    let x1 := x0 ^^^ (x0 >>> 16)
    let x2 := x1 * 0x85EBCA6B#32
    let x3 := x2 ^^^ (x2 >>> 13)
    let x4 := x3 * 0xC2B2AE35#32
    let x5 := x4 ^^^ (x4 >>> 16)
    exec (.fmix32 opa) s = .next (s.addResponse ⟨.ok, x5.setWidth 64⟩)

/-- R132: `FMIX64`, its five steps written out; accepted in every state, nothing else changes. -/
def Obligations.Fmix64Result : Prop :=
  ∀ (opa : Data) (s : State),
    let x0 := opa
    let x1 := x0 ^^^ (x0 >>> 33)
    let x2 := x1 * 0xFF51AFD7ED558CCD#64
    let x3 := x2 ^^^ (x2 >>> 33)
    let x4 := x3 * 0xC4CEB9FE1A85EC53#64
    let x5 := x4 ^^^ (x4 >>> 33)
    exec (.fmix64 opa) s = .next (s.addResponse ⟨.ok, x5⟩)

/-- What R134 derives from R131 to R133 (the spec marks the inference as its own): every step is a bijection on words;
so `FMIX32` is a permutation of the 2^32 words and `FMIX64` of the 2^64 words, and 0 is the only input that gives 0. -/
def Obligations.FinalizerIsPermutation : Prop :=
  (∀ w n : Nat, 1 ≤ n → n < w → Function.Bijective (fun x : BitVec w => xorShift n x)) ∧
  Function.Bijective (fun x : BitVec 32 => x * 0x85EBCA6B#32) ∧
  Function.Bijective (fun x : BitVec 32 => x * 0xC2B2AE35#32) ∧
  Function.Bijective (fun x : BitVec 64 => x * 0xFF51AFD7ED558CCD#64) ∧
  Function.Bijective (fun x : BitVec 64 => x * 0xC4CEB9FE1A85EC53#64) ∧
  (∀ (s : State) (y : BitVec 32), ∃! x : BitVec 32,
    exec (.fmix32 (x.setWidth 64)) s = .next (s.addResponse ⟨.ok, y.setWidth 64⟩)) ∧
  (∀ (s : State) (y : BitVec 64), ∃! x : BitVec 64, exec (.fmix64 x) s = .next (s.addResponse ⟨.ok, y⟩)) ∧
  (∀ (s : State) (x : Data),
    (exec (.fmix32 x) s = .next (s.addResponse ⟨.ok, 0#64⟩) ↔ x.toNat % 2 ^ 32 = 0) ∧
    (exec (.fmix64 x) s = .next (s.addResponse ⟨.ok, 0#64⟩) ↔ x = 0#64))

/-! ## The tabulation mixer (44_tabulation.md) -/

/-- R171: which commands each phase accepts and refuses, and which command leaves it; the commands of the other units,
`CSRR`, `CLRERR` and `CSRW` to `MULCFG`, `MULA`, `MULN` are answered with the same status and have the same effect on
registers and cells in both phases, and with the same data unless it is the `CSRR` that reads the phase itself. -/
def Obligations.PhaseDecidesTableCommands : Prop :=
  (∀ (s : State) (v o : Data) (col : Col) (row : Row), s.tabrdy = false →
    exec (.tabh o) s = raise .tabNotReady 0x30000000#32 s ∧
    exec (.tabrd col row o) s = raise .tabNotReady (0x33#8 ++ 0#5 ++ col ++ row ++ 0#8) s ∧
    (legalTabcfg v = true → ∃ t, exec (.csrw 0x20#8 v) s = .next t ∧ Answered s t .ok 0#64) ∧
    (∃ t, exec (.csrw 0x21#8 v) s = .next t ∧ Answered s t .ok 0#64) ∧
    (col.toNat < tabcfgCols s.tabcfg → ∃ t, exec (.tabw col row o) s = .next t ∧ Answered s t .ok 0#64) ∧
    (∃ t, exec (.tabrand o) s = .next t ∧ Answered s t .ok 0#64) ∧
    (∃ t, exec (.tabcommit o) s = .next t ∧ Answered s t .ok 0#64 ∧ t.tabrdy = true) ∧
    (∃ t, exec (.tabbegin o) s = .next t ∧ Answered s t .ok 0#64 ∧ t.tabrdy = false)) ∧
  (∀ (s : State) (v o : Data) (col : Col) (row : Row), s.tabrdy = true →
    exec (.csrw 0x20#8 v) s = raise .tabLocked 0x02200000#32 s ∧
    exec (.csrw 0x21#8 v) s = raise .tabLocked 0x02210000#32 s ∧
    exec (.tabw col row o) s = raise .tabLocked (0x32#8 ++ 0#5 ++ col ++ row ++ 0#8) s ∧
    exec (.tabrand o) s = raise .tabLocked 0x34000000#32 s ∧
    exec (.tabcommit o) s = raise .tabLocked 0x35000000#32 s ∧
    (∃ t d, exec (.tabh o) s = .next t ∧ Answered s t .ok d) ∧
    (col.toNat < tabcfgCols s.tabcfg → ∃ t d, exec (.tabrd col row o) s = .next t ∧ Answered s t .ok d) ∧
    (∃ t, exec (.tabbegin o) s = .next t ∧ Answered s t .ok 0#64 ∧ t.tabrdy = false)) ∧
  (∀ (i : Instr) (s t t' : State) (b : Bool) (o : Data),
    i ∈ [.mulh o, .fmix32 o, .fmix64 o, .clrerr o, .csrw 0x10#8 o, .csrw 0x11#8 o, .csrw 0x12#8 o] ∨
      (∃ csr, i = .csrr csr o) →
    exec i s = .next t → exec i (s.setTabrdy b) = .next t' →
      ∃ st d d', Answered s t st d ∧ Answered (s.setTabrdy b) t' st d' ∧ (i ≠ .csrr 0x01#8 o → d' = d) ∧
        SameConfig t t' ∧ SameCells t t' ∧ SameRecord t t')

/-- R172: `TABBEGIN` clears `TABRDY` in either phase and changes nothing else; in the building phase nothing at all. -/
def Obligations.TabbeginEndsInstance : Prop :=
  ∀ (opa : Data) (s : State),
    ∃ t, exec (.tabbegin opa) s = .next t ∧ Answered s t .ok 0#64 ∧ t.tabrdy = false ∧
      SameRecord s t ∧ t.status.extractLsb' 2 62 = s.status.extractLsb' 2 62 ∧
      SameConfig s t ∧ SameCells s t ∧ SameEnvironment s t ∧
      (s.tabrdy = false → t = s.addResponse ⟨.ok, 0#64⟩)

/-- R173: `TABW`: `TAB_LOCKED` in the ready phase, then `BAD_INDEX` for a column outside the instance, else the one cell
takes the low `W` bits of `opa` over zeros; every other cell and every register stays. -/
def Obligations.TabwStoresCell : Prop :=
  ∀ (col : Col) (row : Row) (opa : Data) (s : State),
    let W := if s.tabcfg.getLsbD 8 then 64 else 32
    let cols := (s.tabcfg.extractLsb' 0 4).toNat
    (s.tabrdy = true → exec (.tabw col row opa) s = raise .tabLocked (0x32#8 ++ 0#5 ++ col ++ row ++ 0#8) s) ∧
    (s.tabrdy = false → cols ≤ col.toNat →
      exec (.tabw col row opa) s = raise .badIndex (0x32#8 ++ 0#5 ++ col ++ row ++ 0#8) s) ∧
    (s.tabrdy = false → col.toNat < cols →
      ∃ t, exec (.tabw col row opa) s = .next t ∧ Answered s t .ok 0#64 ∧
        t.cell col.toNat row.toNat = BitVec.ofNat 64 (opa.toNat % 2 ^ W) ∧
        (∀ c r : Nat, r < 256 → (c ≠ col.toNat ∨ r ≠ row.toNat) → t.cell c r = s.cell c r) ∧
        t.status = s.status ∧ t.ecause = s.ecause ∧ t.ecmd = s.ecmd ∧ SameConfig s t ∧ SameEnvironment s t)

/-- R174: `TABRAND`: `TAB_LOCKED` in the ready phase, else every cell of the instance's columns takes the low `W` bits
of a draw of its own; every other cell and every register stays. That the draws are numbered, and in which order, is the
model's choice (log entry 3); nothing is known of a draw's value. -/
def Obligations.TabrandFillsColumns : Prop :=
  ∀ (opa : Data) (s : State),
    let W := if s.tabcfg.getLsbD 8 then 64 else 32
    let cols := (s.tabcfg.extractLsb' 0 4).toNat
    (s.tabrdy = true → exec (.tabrand opa) s = raise .tabLocked 0x34000000#32 s) ∧
    (s.tabrdy = false → legalTabcfg s.tabcfg = true →
      ∃ t, exec (.tabrand opa) s = .next t ∧ Answered s t .ok 0#64 ∧
        (∀ c r : Nat, c < cols → r < 256 →
          t.cell c r = BitVec.ofNat 64 ((Config.entropy (s.draws + (256 * c + r))).toNat % 2 ^ W)) ∧
        (∀ c r : Nat, cols ≤ c → t.cell c r = s.cell c r) ∧
        t.draws = s.draws + 256 * cols ∧
        t.status = s.status ∧ t.ecause = s.ecause ∧ t.ecmd = s.ecmd ∧ SameConfig s t ∧
        t.inputs = s.inputs ∧ t.resets = s.resets)

/-- R175: `TABCOMMIT`: `TAB_LOCKED` in the ready phase, else `TABRDY` is set and nothing else changes, whether or not
cells were written. -/
def Obligations.TabcommitLocksInstance : Prop :=
  ∀ (opa : Data) (s : State),
    (s.tabrdy = true → exec (.tabcommit opa) s = raise .tabLocked 0x35000000#32 s) ∧
    (s.tabrdy = false →
      ∃ t, exec (.tabcommit opa) s = .next t ∧ Answered s t .ok 0#64 ∧ t.tabrdy = true ∧
        SameRecord s t ∧ t.status.extractLsb' 2 62 = s.status.extractLsb' 2 62 ∧
        SameConfig s t ∧ SameCells s t ∧ SameEnvironment s t)

/-- R176: `TABH`: `TAB_NOT_READY` in the building phase, else the fold of the rule's loop over the key's bytes, in
arithmetic on the key and the `W`-bit views, and nothing else changes. -/
def Obligations.TabhXorsCells : Prop :=
  ∀ (opa : Data) (s : State),
    let W := if s.tabcfg.getLsbD 8 then 64 else 32
    let cols := (s.tabcfg.extractLsb' 0 4).toNat
    let key := opa.toNat % 2 ^ W
    (s.tabrdy = false → exec (.tabh opa) s = raise .tabNotReady 0x30000000#32 s) ∧
    (s.tabrdy = true →
      exec (.tabh opa) s = .next (s.addResponse ⟨.ok,
        (List.range (W / 8)).foldl
          (fun acc i => acc ^^^ BitVec.ofNat 64 ((s.cell (i % cols) (key / 2 ^ (8 * i) % 2 ^ 8)).toNat % 2 ^ W))
          (BitVec.ofNat 64 (s.tabseed.toNat % 2 ^ W))⟩))

/-- R177: `TABRD`: `TAB_NOT_READY` in the building phase, then `BAD_INDEX` for a column outside the instance, else the
low `W` bits of the cell, and nothing else changes. -/
def Obligations.TabrdReadsCell : Prop :=
  ∀ (col : Col) (row : Row) (opa : Data) (s : State),
    let W := if s.tabcfg.getLsbD 8 then 64 else 32
    let cols := (s.tabcfg.extractLsb' 0 4).toNat
    (s.tabrdy = false → exec (.tabrd col row opa) s = raise .tabNotReady (0x33#8 ++ 0#5 ++ col ++ row ++ 0#8) s) ∧
    (s.tabrdy = true → cols ≤ col.toNat →
      exec (.tabrd col row opa) s = raise .badIndex (0x33#8 ++ 0#5 ++ col ++ row ++ 0#8) s) ∧
    (s.tabrdy = true → col.toNat < cols →
      exec (.tabrd col row opa) s =
        .next (s.addResponse ⟨.ok, BitVec.ofNat 64 ((s.cell col.toNat row.toNat).toNat % 2 ^ W)⟩))

/-- Derived in R177 from R176 (the spec marks the inference as its own): in the ready phase the response of `TABH` is
the exclusive or of `TABSEED[W-1:0]` and the responses of the `W/8` corresponding `TABRD` commands. -/
def Obligations.TabhIsXorOfTabrdResponses : Prop :=
  ∀ (s : State) (key : Data) (d : Nat → Data), s.tabrdy = true → legalTabcfg s.tabcfg = true →
    let w := tabcfgWidth s.tabcfg
    let cols := tabcfgCols s.tabcfg
    (∀ i, i < w.bytes →
      exec (.tabrd (BitVec.ofNat 3 (i % cols)) (byteOf key i) 0#64) s = .next (s.addResponse ⟨.ok, d i⟩)) →
    exec (.tabh key) s = .next (s.addResponse ⟨.ok,
      (List.range w.bytes).foldl (fun acc i => acc ^^^ d i) (w.view s.tabseed)⟩)

/-- Derived in R182 from R177, with the refusal of R222 (the spec marks the inference as its own): in the ready phase
`TABRD col, row` succeeds exactly when `col < TABCFG.COLS`, for every row and either width. -/
def Obligations.TableShapeIsColsByRows : Prop :=
  ∀ (s : State) (col : Col) (row : Row) (o : Data), s.tabrdy = true →
    ((∃ t d, exec (.tabrd col row o) s = .next t ∧ Answered s t .ok d) ↔ col.toNat < tabcfgCols s.tabcfg)

/-- Derived in R179 from R176 (the spec marks the inference as its own): `TABH` touches only the columns below
`min(COLS, W/8)`: two instances with the same registers whose cells agree there hash every key alike; at `COLS = 8`, `W
= 32` columns 4 to 7 are never used. -/
def Obligations.TabhUsesOnlyColumnsInUse : Prop :=
  ∀ (s s' : State) (key d : Data), s.tabrdy = true → s'.tabrdy = true → legalTabcfg s.tabcfg = true →
    s'.tabcfg = s.tabcfg → s'.tabseed = s.tabseed →
    (∀ c r : Nat, c < min (tabcfgCols s.tabcfg) (tabcfgWidth s.tabcfg).bytes → r < 256 → s'.cell c r = s.cell c r) →
    exec (.tabh key) s = .next (s.addResponse ⟨.ok, d⟩) → exec (.tabh key) s' = .next (s'.addResponse ⟨.ok, d⟩)

/-- What R181 derives from R176 (the spec marks the inference as its own), the consequences of the exclusive-or
structure for an instance in the ready phase: the order of the bytes does not matter; two equal bytes that share a
column cancel; with one column a key whose byte values each occur an even number of times hashes to the seed, so key
`0x00000101` at `W = 32` does; with all cells 0 every key hashes to the seed; changing the seed by `e` changes every
hash by `e[W-1:0]`. -/
def Obligations.TabhXorStructure : Prop :=
  ∀ (s : State) (key d : Data), s.tabrdy = true → legalTabcfg s.tabcfg = true →
    exec (.tabh key) s = .next (s.addResponse ⟨.ok, d⟩) →
    let w := tabcfgWidth s.tabcfg
    let cols := tabcfgCols s.tabcfg
    (∀ l : List Nat, l.Perm (List.range w.bytes) →
      d = l.foldl (fun acc i => acc ^^^ s.memRead w (i % cols) (byteOf key i).toNat) (w.view s.tabseed)) ∧
    (∀ (key' : Data) (i j : Nat), i < j → j < w.bytes → i % cols = j % cols →
      byteOf key i = byteOf key j → byteOf key' i = byteOf key' j →
      (∀ n, n < w.bytes → n ≠ i → n ≠ j → byteOf key' n = byteOf key n) →
      exec (.tabh key') s = .next (s.addResponse ⟨.ok, d⟩)) ∧
    (cols = 1 → (∀ b : BitVec 8, Even ((List.range w.bytes).countP (fun i => byteOf key i == b))) →
      d = w.view s.tabseed) ∧
    (cols = 1 → w = .w32 → key = 0x00000101#64 → d = (s.tabseed.extractLsb' 0 32).setWidth 64) ∧
    ((∀ c r : Nat, c < 8 → r < 256 → s.cell c r = 0#64) → d = w.view s.tabseed) ∧
    (∀ e : Data, exec (.tabh key) (s.setTabseed (s.tabseed ^^^ e)) =
      .next ((s.setTabseed (s.tabseed ^^^ e)).addResponse ⟨.ok, d ^^^ w.view e⟩))

/-- R39: while `TABRDY = 1` no command changes `TABCFG`, `TABSEED` or any cell, the commands that could are refused with
`TAB_LOCKED`, and only `TABBEGIN` leaves the phase; so over any run with neither `TABBEGIN` nor reset among the inputs
it takes, `TABH` of a key has the same response at the end as at the start (this consequence the spec derives from R39
and R176 and marks as its own inference). -/
def Obligations.ReadyInstanceIsImmutable : Prop :=
  (∀ (i : Instr) (s t : State), s.tabrdy = true → exec i s = .next t →
    t.tabcfg = s.tabcfg ∧ t.tabseed = s.tabseed ∧ SameCells s t ∧ (t.tabrdy = false → ∃ o, i = .tabbegin o)) ∧
  (∀ (s : State) (col : Col) (row : Row) (o : Data), s.tabrdy = true →
    exec (.csrw 0x20#8 o) s = raise .tabLocked 0x02200000#32 s ∧
    exec (.csrw 0x21#8 o) s = raise .tabLocked 0x02210000#32 s ∧
    exec (.tabw col row o) s = raise .tabLocked (0x32#8 ++ 0#5 ++ col ++ row ++ 0#8) s ∧
    exec (.tabrand o) s = raise .tabLocked 0x34000000#32 s) ∧
  (∀ (n : Nat) (s t : State) (key d : Data), s.tabrdy = true →
    (∀ x ∈ s.inputs.take n, ¬ endsInstance x) → runSteps n s = .next t →
    exec (.tabh key) s = .next (s.addResponse ⟨.ok, d⟩) → exec (.tabh key) t = .next (t.addResponse ⟨.ok, d⟩))

/-- R68 (b): a `TABRD` after `TABCOMMIT` sees the `TABW` accepted before it, through the `W`-bit view. -/
def Obligations.TabrdSeesCommittedTabw : Prop :=
  ∀ (s : State) (col : Col) (row : Row) (v o o' : Data),
    s.tabrdy = false → col.toNat < tabcfgCols s.tabcfg →
    ∃ t u, exec (.tabw col row v) s = .next t ∧ exec (.tabcommit o) t = .next u ∧
      exec (.tabrd col row o') u = .next (u.addResponse ⟨.ok, (tabcfgWidth s.tabcfg).view v⟩)

/-! ## The reference functions and the assembler (43_murmur3_hash_reference.md, 30_encoding.md) -/

/-- R150, whose reach to every key and seed the spec derives and marks as its own inference: the 64-bit fixed-input
function of a key equals the buffer function of the key's 8 bytes, little-endian, for every key and seed. Both rest on
the constants of log entry 8. -/
def Obligations.FixedInputEqualsBuffer : Prop :=
  ∀ k seed : BitVec 64, m3Hash64 k seed = m3HashBuf (keyBytes k) seed

/-- What R149 derives from R148 and R134 (the spec marks the inference as its own; constants of log entry 8): a
zero-length buffer hashes to rule R148 applied to the seed with length 0, and to 0 for seed 0. -/
def Obligations.ZeroLengthBufferHash : Prop :=
  (∀ seed : BitVec 64, m3HashBuf [] seed = Lanes.finish ⟨seed, seed⟩ 0#64) ∧ m3HashBuf [] 0#64 = 0#128

/-- R153: a host computes `M3_64_128` from the responses of two `FMIX64` commands, issued in either order, and `M3_32`
from that of one `FMIX32` command. -/
def Obligations.HostFinishesWithFinalizerCommands : Prop :=
  (∀ (key seed : BitVec 64) (s : State),
    let l := Lanes.beforeFinalizer ⟨seed ^^^ m3MixK1 key, seed⟩ 8#64
    ∃ d1 d2 : Data,
      exec (.fmix64 l.h1) s = .next (s.addResponse ⟨.ok, d1⟩) ∧
      exec (.fmix64 l.h2) (s.addResponse ⟨.ok, d1⟩) = .next ((s.addResponse ⟨.ok, d1⟩).addResponse ⟨.ok, d2⟩) ∧
      exec (.fmix64 l.h2) s = .next (s.addResponse ⟨.ok, d2⟩) ∧
      exec (.fmix64 l.h1) (s.addResponse ⟨.ok, d2⟩) = .next ((s.addResponse ⟨.ok, d2⟩).addResponse ⟨.ok, d1⟩) ∧
      m3Hash64 key seed = (Lanes.cross ⟨d1, d2⟩).packed) ∧
  (∀ (key seed : BitVec 32) (s : State), ∃ d : Data,
    exec (.fmix32 ((m3Body32 key seed).setWidth 64)) s = .next (s.addResponse ⟨.ok, d⟩) ∧
      m3Hash32 key seed = d.extractLsb' 0 32)

/-- R91: `MULSETUP` and `TABSETUP` put each operand into its own field and leave the reserved bits 0; `NOP` is
`CSRR ID`. That `NOP` is sent with operand 0 is the model's choice (log entry 10): R91 names no operand. -/
def Obligations.SetupPseudoInstructionsFillFields : Prop :=
  (∀ (csel mode p : Nat) (w : Width), csel < 4 → mode < 2 → p ≤ 64 →
    ∃ v, mulSetup csel w mode p = .csrw 0x10#8 v ∧ (mulcfgCsel v).toNat = csel ∧ mulcfgWidth v = w ∧
      mulcfgMode v = decide (mode = 1) ∧ mulcfgP v = p ∧ v.extractLsb' 12 52 = 0#52 ∧ v.getLsbD 7 = false) ∧
  (∀ (cols : Nat) (w : Width), cols < 16 →
    ∃ v, tabSetup cols w = .csrw 0x20#8 v ∧ tabcfgCols v = cols ∧ tabcfgWidth v = w ∧
      v.extractLsb' 9 55 = 0#55 ∧ v.extractLsb' 4 4 = 0#4) ∧
  nop = .csrr 0x00#8 0#64
end

