-- ==== Sys2Proof/Laws/Decode.lean ====
section
/-! SUPPORT. The fields of an encoded word, read back. -/

namespace Sys2Proof

/-- The upper of two concatenated fields, read back from any offset inside it. -/
theorem extract_append_high {a b : Nat} (x : BitVec a) (y : BitVec b) (off len : Nat) :
    (x ++ y).extractLsb' (b + off) len = x.extractLsb' off len := by
  apply BitVec.eq_of_getLsbD_eq
  intro i hi
  simp [BitVec.getLsbD_append, hi, show ¬ b + off + i < b by omega, show b + off + i - b = off + i by omega]

/-- The lower of two concatenated fields, read back. -/
theorem extract_append_low {a b : Nat} (x : BitVec a) (y : BitVec b) (off len : Nat) (h : off + len ≤ b) :
    (x ++ y).extractLsb' off len = y.extractLsb' off len := by
  apply BitVec.eq_of_getLsbD_eq
  intro i hi
  simp [BitVec.getLsbD_append, hi, show off + i < b by omega]

theorem extract_all {a : Nat} (x : BitVec a) : x.extractLsb' 0 a = x := by
  apply BitVec.eq_of_getLsbD_eq
  intro i hi
  simp [hi]

theorem opcodeOf_wordN (op : Opcode) : opcodeOf (wordN op) = op :=
  (extract_append_high op 0#24 0 8).trans (extract_all op)

theorem opcodeOf_wordC (op : Opcode) (csr : CsrAddr) : opcodeOf (wordC op csr) = op :=
  (extract_append_high (op ++ csr) 0#16 8 8).trans ((extract_append_high op csr 0 8).trans (extract_all op))

theorem csrOf_wordC (op : Opcode) (csr : CsrAddr) : csrOf (wordC op csr) = csr :=
  (extract_append_high (op ++ csr) 0#16 0 8).trans
    ((extract_append_low op csr 0 8 (by decide)).trans (extract_all csr))

theorem opcodeOf_wordT (op : Opcode) (col : Col) (row : Row) : opcodeOf (wordT op col row) = op :=
  (extract_append_high (op ++ 0#5 ++ col ++ row) 0#8 16 8).trans
    ((extract_append_high (op ++ 0#5 ++ col) row 8 8).trans
      ((extract_append_high (op ++ 0#5) col 5 8).trans
        ((extract_append_high op 0#5 0 8).trans (extract_all op))))

theorem colOf_wordT (op : Opcode) (col : Col) (row : Row) : colOf (wordT op col row) = col :=
  (extract_append_high (op ++ 0#5 ++ col ++ row) 0#8 8 3).trans
    ((extract_append_high (op ++ 0#5 ++ col) row 0 3).trans
      ((extract_append_low (op ++ 0#5) col 0 3 (by decide)).trans (extract_all col)))

theorem rowOf_wordT (op : Opcode) (col : Col) (row : Row) : rowOf (wordT op col row) = row :=
  (extract_append_high (op ++ 0#5 ++ col ++ row) 0#8 0 8).trans
    ((extract_append_low (op ++ 0#5 ++ col) row 0 8 (by decide)).trans (extract_all row))

theorem zeroN_wordN (op : Opcode) : zeroN (wordN op) = true :=
  beq_iff_eq.mpr (extract_append_low op 0#24 0 24 (by decide))

theorem zeroC_wordC (op : Opcode) (csr : CsrAddr) : zeroC (wordC op csr) = true :=
  beq_iff_eq.mpr (extract_append_low (op ++ csr) 0#16 0 16 (by decide))

theorem zeroT_wordT (op : Opcode) (col : Col) (row : Row) : zeroT (wordT op col row) = true :=
  Bool.and_eq_true_iff.mpr
    ⟨beq_iff_eq.mpr ((extract_append_high (op ++ 0#5 ++ col ++ row) 0#8 11 5).trans
      ((extract_append_high (op ++ 0#5 ++ col) row 3 5).trans
        ((extract_append_high (op ++ 0#5) col 0 5).trans (extract_append_low op 0#5 0 5 (by decide))))),
      beq_iff_eq.mpr (extract_append_low (op ++ 0#5 ++ col ++ row) 0#8 0 8 (by decide))⟩

/-! A row of the opcode map, by the fields of the word: match and mask agree with opcode and zero bits (R84). -/

theorem bit_of_extract {n : Nat} {w v : BitVec n} {off len : Nat}
    (h : w.extractLsb' off len = v.extractLsb' off len) {i : Nat} (hlo : off ≤ i) (hhi : i < off + len) :
    w.getLsbD i = v.getLsbD i := by
  have hb := congrArg (fun x => x.getLsbD (i - off)) h
  simpa only [BitVec.getLsbD_extractLsb', show i - off < len by omega, decide_true, Bool.true_and,
    show off + (i - off) = i by omega] using hb

/-- A word is fixed by its opcode and the 24 bits below. -/
theorem word_ext_n {w v : CmdWord} (h1 : opcodeOf w = opcodeOf v)
    (h2 : w.extractLsb' 0 24 = v.extractLsb' 0 24) : w = v := by
  apply BitVec.eq_of_getLsbD_eq
  intro i hi
  by_cases h : i < 24
  · exact bit_of_extract h2 (by omega) (by omega)
  · exact bit_of_extract h1 (by omega) (by omega)

/-- A word is fixed by its fields of format C. -/
theorem word_ext_c {w v : CmdWord} (h1 : opcodeOf w = opcodeOf v) (h2 : csrOf w = csrOf v)
    (h3 : w.extractLsb' 0 16 = v.extractLsb' 0 16) : w = v := by
  apply BitVec.eq_of_getLsbD_eq
  intro i hi
  by_cases ha : i < 16
  · exact bit_of_extract h3 (by omega) (by omega)
  · by_cases hb : i < 24
    · exact bit_of_extract h2 (by omega) (by omega)
    · exact bit_of_extract h1 (by omega) (by omega)

/-- A word is fixed by its fields of format T. -/
theorem word_ext_t {w v : CmdWord} (h1 : opcodeOf w = opcodeOf v)
    (h2 : w.extractLsb' 19 5 = v.extractLsb' 19 5) (h3 : colOf w = colOf v) (h4 : rowOf w = rowOf v)
    (h5 : w.extractLsb' 0 8 = v.extractLsb' 0 8) : w = v := by
  apply BitVec.eq_of_getLsbD_eq
  intro i hi
  by_cases ha : i < 8
  · exact bit_of_extract h5 (by omega) (by omega)
  · by_cases hb : i < 16
    · exact bit_of_extract h4 (by omega) (by omega)
    · by_cases hc : i < 19
      · exact bit_of_extract h3 (by omega) (by omega)
      · by_cases hd : i < 24
        · exact bit_of_extract h2 (by omega) (by omega)
        · exact bit_of_extract h1 (by omega) (by omega)

/-- The bits of a row's match below the opcode are zero. -/
theorem low_wordN (op : Opcode) : (wordN op).extractLsb' 0 24 = 0#24 :=
  extract_append_low op 0#24 0 24 (by decide)

theorem mask_n_iff (w : CmdWord) (op : Opcode) :
    w &&& Format.n.mask = wordN op ↔ opcodeOf w = op ∧ zeroN w = true := by
  have hm : w &&& Format.n.mask = w := BitVec.and_allOnes
  rw [hm, zeroN, beq_iff_eq]
  constructor
  · rintro rfl
    exact ⟨opcodeOf_wordN op, low_wordN op⟩
  · rintro ⟨h1, h2⟩
    exact word_ext_n (h1.trans (opcodeOf_wordN op).symm) (h2.trans (low_wordN op).symm)

theorem mask_c_iff (w : CmdWord) (op : Opcode) :
    w &&& Format.c.mask = wordN op ↔ opcodeOf w = op ∧ zeroC w = true := by
  have e1 : opcodeOf (w &&& Format.c.mask) = opcodeOf w := by
    simp only [opcodeOf, BitVec.extractLsb'_and]
    exact BitVec.and_allOnes
  have e2 : csrOf (w &&& Format.c.mask) = 0#8 := by
    simp only [csrOf, BitVec.extractLsb'_and]
    exact BitVec.and_zero
  have e3 : (w &&& Format.c.mask).extractLsb' 0 16 = w.extractLsb' 0 16 := by
    simp only [BitVec.extractLsb'_and]
    exact BitVec.and_allOnes
  have v2 : csrOf (wordN op) = 0#8 :=
    (extract_append_low op 0#24 16 8 (by decide)).trans (by decide)
  have v3 : (wordN op).extractLsb' 0 16 = 0#16 :=
    (extract_append_low op 0#24 0 16 (by decide)).trans (by decide)
  rw [zeroC, beq_iff_eq]
  constructor
  · intro h
    exact ⟨e1.symm.trans ((congrArg opcodeOf h).trans (opcodeOf_wordN op)),
      e3.symm.trans ((congrArg (BitVec.extractLsb' 0 16) h).trans v3)⟩
  · rintro ⟨h1, h2⟩
    exact word_ext_c (e1.trans (h1.trans (opcodeOf_wordN op).symm)) (e2.trans v2.symm) (e3.trans (h2.trans v3.symm))

theorem mask_t_iff (w : CmdWord) (op : Opcode) :
    w &&& Format.t.mask = wordN op ↔ opcodeOf w = op ∧ zeroT w = true := by
  have e1 : opcodeOf (w &&& Format.t.mask) = opcodeOf w := by
    simp only [opcodeOf, BitVec.extractLsb'_and]
    exact BitVec.and_allOnes
  have e2 : (w &&& Format.t.mask).extractLsb' 19 5 = w.extractLsb' 19 5 := by
    simp only [BitVec.extractLsb'_and]
    exact BitVec.and_allOnes
  have e3 : colOf (w &&& Format.t.mask) = 0#3 := by
    simp only [colOf, BitVec.extractLsb'_and]
    exact BitVec.and_zero
  have e4 : rowOf (w &&& Format.t.mask) = 0#8 := by
    simp only [rowOf, BitVec.extractLsb'_and]
    exact BitVec.and_zero
  have e5 : (w &&& Format.t.mask).extractLsb' 0 8 = w.extractLsb' 0 8 := by
    simp only [BitVec.extractLsb'_and]
    exact BitVec.and_allOnes
  have v2 : (wordN op).extractLsb' 19 5 = 0#5 :=
    (extract_append_low op 0#24 19 5 (by decide)).trans (by decide)
  have v3 : colOf (wordN op) = 0#3 := (extract_append_low op 0#24 16 3 (by decide)).trans (by decide)
  have v4 : rowOf (wordN op) = 0#8 := (extract_append_low op 0#24 8 8 (by decide)).trans (by decide)
  have v5 : (wordN op).extractLsb' 0 8 = 0#8 :=
    (extract_append_low op 0#24 0 8 (by decide)).trans (by decide)
  rw [zeroT, Bool.and_eq_true, beq_iff_eq, beq_iff_eq]
  constructor
  · intro h
    exact ⟨e1.symm.trans ((congrArg opcodeOf h).trans (opcodeOf_wordN op)),
      e2.symm.trans ((congrArg (BitVec.extractLsb' 19 5) h).trans v2),
      e5.symm.trans ((congrArg (BitVec.extractLsb' 0 8) h).trans v5)⟩
  · rintro ⟨h1, h2, h5⟩
    exact word_ext_t (e1.trans (h1.trans (opcodeOf_wordN op).symm)) (e2.trans (h2.trans v2.symm))
      (e3.trans v3.symm) (e4.trans v4.symm) (e5.trans (h5.trans v5.symm))

/-- The zero fields of a format, all zero. -/
def zeroOf (f : Format) (w : CmdWord) : Bool :=
  match f with
  | .n => zeroN w
  | .c => zeroC w
  | .t => zeroT w

/-- A row matches a word exactly when the opcode is the row's and the zero bits of its format are zero. -/
theorem matchesWord_iff (m : String) (f : Format) (op : Opcode) (w : CmdWord) :
    TableRow.matchesWord ⟨m, f, wordN op⟩ w = (decide (opcodeOf w = op) && zeroOf f w) := by
  rw [Bool.eq_iff_iff, Bool.and_eq_true, decide_eq_true_eq, TableRow.matchesWord, beq_iff_eq]
  cases f
  · exact mask_n_iff w op
  · exact mask_c_iff w op
  · exact mask_t_iff w op

/-- The opcode map with each match written as its opcode over zeros. -/
theorem opcodeTable_eq : opcodeTable =
    [ ⟨"CSRR", .c, wordN 0x01#8⟩, ⟨"CSRW", .c, wordN 0x02#8⟩, ⟨"CLRERR", .n, wordN 0x03#8⟩,
      ⟨"MULH", .n, wordN 0x10#8⟩, ⟨"FMIX32", .n, wordN 0x20#8⟩, ⟨"FMIX64", .n, wordN 0x21#8⟩,
      ⟨"TABH", .n, wordN 0x30#8⟩, ⟨"TABBEGIN", .n, wordN 0x31#8⟩, ⟨"TABW", .t, wordN 0x32#8⟩,
      ⟨"TABRD", .t, wordN 0x33#8⟩, ⟨"TABRAND", .n, wordN 0x34#8⟩, ⟨"TABCOMMIT", .n, wordN 0x35#8⟩ ] := by
  decide

/-! The decoder, said once: which instruction an accepted command is, and on which opcode and zero bits. -/

/-- The instruction a command decodes to, with its opcode and its zero bits. -/
inductive Decoded (c : Command) : Instr → Prop
  | csrr (hop : opcodeOf c.word = 0x01#8) (hz : zeroC c.word = true) : Decoded c (.csrr (csrOf c.word) c.opa)
  | csrw (hop : opcodeOf c.word = 0x02#8) (hz : zeroC c.word = true) : Decoded c (.csrw (csrOf c.word) c.opa)
  | clrerr (hop : opcodeOf c.word = 0x03#8) (hz : zeroN c.word = true) : Decoded c (.clrerr c.opa)
  | mulh (hop : opcodeOf c.word = 0x10#8) (hz : zeroN c.word = true) : Decoded c (.mulh c.opa)
  | fmix32 (hop : opcodeOf c.word = 0x20#8) (hz : zeroN c.word = true) : Decoded c (.fmix32 c.opa)
  | fmix64 (hop : opcodeOf c.word = 0x21#8) (hz : zeroN c.word = true) : Decoded c (.fmix64 c.opa)
  | tabh (hop : opcodeOf c.word = 0x30#8) (hz : zeroN c.word = true) : Decoded c (.tabh c.opa)
  | tabbegin (hop : opcodeOf c.word = 0x31#8) (hz : zeroN c.word = true) : Decoded c (.tabbegin c.opa)
  | tabw (hop : opcodeOf c.word = 0x32#8) (hz : zeroT c.word = true) : Decoded c (.tabw (colOf c.word) (rowOf c.word) c.opa)
  | tabrd (hop : opcodeOf c.word = 0x33#8) (hz : zeroT c.word = true) : Decoded c (.tabrd (colOf c.word) (rowOf c.word) c.opa)
  | tabrand (hop : opcodeOf c.word = 0x34#8) (hz : zeroN c.word = true) : Decoded c (.tabrand c.opa)
  | tabcommit (hop : opcodeOf c.word = 0x35#8) (hz : zeroN c.word = true) : Decoded c (.tabcommit c.opa)

theorem ite_cases {α : Type} {p : Prop} [Decidable p] {a b r : α} (h : (if p then a else b) = r) :
    (p ∧ a = r) ∨ (¬ p ∧ b = r) := by
  by_cases hp : p
  · exact .inl ⟨hp, (if_pos hp).symm.trans h⟩
  · exact .inr ⟨hp, (if_neg hp).symm.trans h⟩

theorem checked_ok {w : CmdWord} {zero : Bool} {i j : Instr} (h : checked w zero i = .ok j) :
    zero = true ∧ j = i := by
  cases zero with
  | true => exact ⟨rfl, ((Except.ok.injEq _ _).mp h).symm⟩
  | false => cases h

theorem decoded_of_decode {c : Command} {i : Instr} (h : decode c = .ok i) : Decoded c i := by
  unfold decode at h
  rcases ite_cases h with ⟨hop, h⟩ | ⟨_, h⟩
  · obtain ⟨hz, rfl⟩ := checked_ok h
    exact .csrr hop hz
  rcases ite_cases h with ⟨hop, h⟩ | ⟨_, h⟩
  · obtain ⟨hz, rfl⟩ := checked_ok h
    exact .csrw hop hz
  rcases ite_cases h with ⟨hop, h⟩ | ⟨_, h⟩
  · obtain ⟨hz, rfl⟩ := checked_ok h
    exact .clrerr hop hz
  rcases ite_cases h with ⟨hop, h⟩ | ⟨_, h⟩
  · obtain ⟨hz, rfl⟩ := checked_ok h
    exact .mulh hop hz
  rcases ite_cases h with ⟨hop, h⟩ | ⟨_, h⟩
  · obtain ⟨hz, rfl⟩ := checked_ok h
    exact .fmix32 hop hz
  rcases ite_cases h with ⟨hop, h⟩ | ⟨_, h⟩
  · obtain ⟨hz, rfl⟩ := checked_ok h
    exact .fmix64 hop hz
  rcases ite_cases h with ⟨hop, h⟩ | ⟨_, h⟩
  · obtain ⟨hz, rfl⟩ := checked_ok h
    exact .tabh hop hz
  rcases ite_cases h with ⟨hop, h⟩ | ⟨_, h⟩
  · obtain ⟨hz, rfl⟩ := checked_ok h
    exact .tabbegin hop hz
  rcases ite_cases h with ⟨hop, h⟩ | ⟨_, h⟩
  · obtain ⟨hz, rfl⟩ := checked_ok h
    exact .tabw hop hz
  rcases ite_cases h with ⟨hop, h⟩ | ⟨_, h⟩
  · obtain ⟨hz, rfl⟩ := checked_ok h
    exact .tabrd hop hz
  rcases ite_cases h with ⟨hop, h⟩ | ⟨_, h⟩
  · obtain ⟨hz, rfl⟩ := checked_ok h
    exact .tabrand hop hz
  rcases ite_cases h with ⟨hop, h⟩ | ⟨_, h⟩
  · obtain ⟨hz, rfl⟩ := checked_ok h
    exact .tabcommit hop hz
  cases h

theorem decode_of_decoded {c : Command} {i : Instr} (h : Decoded c i) : decode c = .ok i := by
  unfold decode
  cases h with
  | csrr hop hz => simp only [hop, hz]; rfl
  | csrw hop hz => simp only [hop, hz]; rfl
  | clrerr hop hz => simp only [hop, hz]; rfl
  | mulh hop hz => simp only [hop, hz]; rfl
  | fmix32 hop hz => simp only [hop, hz]; rfl
  | fmix64 hop hz => simp only [hop, hz]; rfl
  | tabh hop hz => simp only [hop, hz]; rfl
  | tabbegin hop hz => simp only [hop, hz]; rfl
  | tabw hop hz => simp only [hop, hz]; rfl
  | tabrd hop hz => simp only [hop, hz]; rfl
  | tabrand hop hz => simp only [hop, hz]; rfl
  | tabcommit hop hz => simp only [hop, hz]; rfl

end Sys2Proof
end

