-- ==== Sys2Proof/Laws/State.lean ====
section
/-! SUPPORT. What each single-field update of `State` leaves in each field, and the cell and the flags it leaves. -/

namespace Sys2Proof.Machine

variable (s : State)

@[simp] theorem State.setStatus_status (v : Data) : (s.setStatus v).status = v := rfl
@[simp] theorem State.setStatus_ecause (v : Data) : (s.setStatus v).ecause = s.ecause := rfl
@[simp] theorem State.setStatus_ecmd (v : Data) : (s.setStatus v).ecmd = s.ecmd := rfl
@[simp] theorem State.setStatus_mulcfg (v : Data) : (s.setStatus v).mulcfg = s.mulcfg := rfl
@[simp] theorem State.setStatus_mula (v : Data) : (s.setStatus v).mula = s.mula := rfl
@[simp] theorem State.setStatus_muln (v : Data) : (s.setStatus v).muln = s.muln := rfl
@[simp] theorem State.setStatus_tabcfg (v : Data) : (s.setStatus v).tabcfg = s.tabcfg := rfl
@[simp] theorem State.setStatus_tabseed (v : Data) : (s.setStatus v).tabseed = s.tabseed := rfl
@[simp] theorem State.setStatus_table (v : Data) : (s.setStatus v).table = s.table := rfl
@[simp] theorem State.setStatus_resets (v : Data) : (s.setStatus v).resets = s.resets := rfl
@[simp] theorem State.setStatus_draws (v : Data) : (s.setStatus v).draws = s.draws := rfl
@[simp] theorem State.setStatus_inputs (v : Data) : (s.setStatus v).inputs = s.inputs := rfl
@[simp] theorem State.setStatus_responses (v : Data) : (s.setStatus v).responses = s.responses := rfl
@[simp] theorem State.setStatus_cell (v : Data) (c r : Nat) : (s.setStatus v).cell c r = s.cell c r := rfl
@[simp] theorem State.setStatus_memRead (v : Data) (w : Width) (c r : Nat) : (s.setStatus v).memRead w c r = s.memRead w c r := rfl

@[simp] theorem State.setEcause_status (v : Data) : (s.setEcause v).status = s.status := rfl
@[simp] theorem State.setEcause_ecause (v : Data) : (s.setEcause v).ecause = v := rfl
@[simp] theorem State.setEcause_ecmd (v : Data) : (s.setEcause v).ecmd = s.ecmd := rfl
@[simp] theorem State.setEcause_mulcfg (v : Data) : (s.setEcause v).mulcfg = s.mulcfg := rfl
@[simp] theorem State.setEcause_mula (v : Data) : (s.setEcause v).mula = s.mula := rfl
@[simp] theorem State.setEcause_muln (v : Data) : (s.setEcause v).muln = s.muln := rfl
@[simp] theorem State.setEcause_tabcfg (v : Data) : (s.setEcause v).tabcfg = s.tabcfg := rfl
@[simp] theorem State.setEcause_tabseed (v : Data) : (s.setEcause v).tabseed = s.tabseed := rfl
@[simp] theorem State.setEcause_table (v : Data) : (s.setEcause v).table = s.table := rfl
@[simp] theorem State.setEcause_resets (v : Data) : (s.setEcause v).resets = s.resets := rfl
@[simp] theorem State.setEcause_draws (v : Data) : (s.setEcause v).draws = s.draws := rfl
@[simp] theorem State.setEcause_inputs (v : Data) : (s.setEcause v).inputs = s.inputs := rfl
@[simp] theorem State.setEcause_responses (v : Data) : (s.setEcause v).responses = s.responses := rfl
@[simp] theorem State.setEcause_cell (v : Data) (c r : Nat) : (s.setEcause v).cell c r = s.cell c r := rfl
@[simp] theorem State.setEcause_memRead (v : Data) (w : Width) (c r : Nat) : (s.setEcause v).memRead w c r = s.memRead w c r := rfl
@[simp] theorem State.setEcause_tabrdy (v : Data) : (s.setEcause v).tabrdy = s.tabrdy := rfl
@[simp] theorem State.setEcause_err (v : Data) : (s.setEcause v).err = s.err := rfl

@[simp] theorem State.setEcmd_status (v : Data) : (s.setEcmd v).status = s.status := rfl
@[simp] theorem State.setEcmd_ecause (v : Data) : (s.setEcmd v).ecause = s.ecause := rfl
@[simp] theorem State.setEcmd_ecmd (v : Data) : (s.setEcmd v).ecmd = v := rfl
@[simp] theorem State.setEcmd_mulcfg (v : Data) : (s.setEcmd v).mulcfg = s.mulcfg := rfl
@[simp] theorem State.setEcmd_mula (v : Data) : (s.setEcmd v).mula = s.mula := rfl
@[simp] theorem State.setEcmd_muln (v : Data) : (s.setEcmd v).muln = s.muln := rfl
@[simp] theorem State.setEcmd_tabcfg (v : Data) : (s.setEcmd v).tabcfg = s.tabcfg := rfl
@[simp] theorem State.setEcmd_tabseed (v : Data) : (s.setEcmd v).tabseed = s.tabseed := rfl
@[simp] theorem State.setEcmd_table (v : Data) : (s.setEcmd v).table = s.table := rfl
@[simp] theorem State.setEcmd_resets (v : Data) : (s.setEcmd v).resets = s.resets := rfl
@[simp] theorem State.setEcmd_draws (v : Data) : (s.setEcmd v).draws = s.draws := rfl
@[simp] theorem State.setEcmd_inputs (v : Data) : (s.setEcmd v).inputs = s.inputs := rfl
@[simp] theorem State.setEcmd_responses (v : Data) : (s.setEcmd v).responses = s.responses := rfl
@[simp] theorem State.setEcmd_cell (v : Data) (c r : Nat) : (s.setEcmd v).cell c r = s.cell c r := rfl
@[simp] theorem State.setEcmd_memRead (v : Data) (w : Width) (c r : Nat) : (s.setEcmd v).memRead w c r = s.memRead w c r := rfl
@[simp] theorem State.setEcmd_tabrdy (v : Data) : (s.setEcmd v).tabrdy = s.tabrdy := rfl
@[simp] theorem State.setEcmd_err (v : Data) : (s.setEcmd v).err = s.err := rfl

@[simp] theorem State.setMulcfg_status (v : Data) : (s.setMulcfg v).status = s.status := rfl
@[simp] theorem State.setMulcfg_ecause (v : Data) : (s.setMulcfg v).ecause = s.ecause := rfl
@[simp] theorem State.setMulcfg_ecmd (v : Data) : (s.setMulcfg v).ecmd = s.ecmd := rfl
@[simp] theorem State.setMulcfg_mulcfg (v : Data) : (s.setMulcfg v).mulcfg = v := rfl
@[simp] theorem State.setMulcfg_mula (v : Data) : (s.setMulcfg v).mula = s.mula := rfl
@[simp] theorem State.setMulcfg_muln (v : Data) : (s.setMulcfg v).muln = s.muln := rfl
@[simp] theorem State.setMulcfg_tabcfg (v : Data) : (s.setMulcfg v).tabcfg = s.tabcfg := rfl
@[simp] theorem State.setMulcfg_tabseed (v : Data) : (s.setMulcfg v).tabseed = s.tabseed := rfl
@[simp] theorem State.setMulcfg_table (v : Data) : (s.setMulcfg v).table = s.table := rfl
@[simp] theorem State.setMulcfg_resets (v : Data) : (s.setMulcfg v).resets = s.resets := rfl
@[simp] theorem State.setMulcfg_draws (v : Data) : (s.setMulcfg v).draws = s.draws := rfl
@[simp] theorem State.setMulcfg_inputs (v : Data) : (s.setMulcfg v).inputs = s.inputs := rfl
@[simp] theorem State.setMulcfg_responses (v : Data) : (s.setMulcfg v).responses = s.responses := rfl
@[simp] theorem State.setMulcfg_cell (v : Data) (c r : Nat) : (s.setMulcfg v).cell c r = s.cell c r := rfl
@[simp] theorem State.setMulcfg_memRead (v : Data) (w : Width) (c r : Nat) : (s.setMulcfg v).memRead w c r = s.memRead w c r := rfl
@[simp] theorem State.setMulcfg_tabrdy (v : Data) : (s.setMulcfg v).tabrdy = s.tabrdy := rfl
@[simp] theorem State.setMulcfg_err (v : Data) : (s.setMulcfg v).err = s.err := rfl

@[simp] theorem State.setMula_status (v : Data) : (s.setMula v).status = s.status := rfl
@[simp] theorem State.setMula_ecause (v : Data) : (s.setMula v).ecause = s.ecause := rfl
@[simp] theorem State.setMula_ecmd (v : Data) : (s.setMula v).ecmd = s.ecmd := rfl
@[simp] theorem State.setMula_mulcfg (v : Data) : (s.setMula v).mulcfg = s.mulcfg := rfl
@[simp] theorem State.setMula_mula (v : Data) : (s.setMula v).mula = v := rfl
@[simp] theorem State.setMula_muln (v : Data) : (s.setMula v).muln = s.muln := rfl
@[simp] theorem State.setMula_tabcfg (v : Data) : (s.setMula v).tabcfg = s.tabcfg := rfl
@[simp] theorem State.setMula_tabseed (v : Data) : (s.setMula v).tabseed = s.tabseed := rfl
@[simp] theorem State.setMula_table (v : Data) : (s.setMula v).table = s.table := rfl
@[simp] theorem State.setMula_resets (v : Data) : (s.setMula v).resets = s.resets := rfl
@[simp] theorem State.setMula_draws (v : Data) : (s.setMula v).draws = s.draws := rfl
@[simp] theorem State.setMula_inputs (v : Data) : (s.setMula v).inputs = s.inputs := rfl
@[simp] theorem State.setMula_responses (v : Data) : (s.setMula v).responses = s.responses := rfl
@[simp] theorem State.setMula_cell (v : Data) (c r : Nat) : (s.setMula v).cell c r = s.cell c r := rfl
@[simp] theorem State.setMula_memRead (v : Data) (w : Width) (c r : Nat) : (s.setMula v).memRead w c r = s.memRead w c r := rfl
@[simp] theorem State.setMula_tabrdy (v : Data) : (s.setMula v).tabrdy = s.tabrdy := rfl
@[simp] theorem State.setMula_err (v : Data) : (s.setMula v).err = s.err := rfl

@[simp] theorem State.setMuln_status (v : Data) : (s.setMuln v).status = s.status := rfl
@[simp] theorem State.setMuln_ecause (v : Data) : (s.setMuln v).ecause = s.ecause := rfl
@[simp] theorem State.setMuln_ecmd (v : Data) : (s.setMuln v).ecmd = s.ecmd := rfl
@[simp] theorem State.setMuln_mulcfg (v : Data) : (s.setMuln v).mulcfg = s.mulcfg := rfl
@[simp] theorem State.setMuln_mula (v : Data) : (s.setMuln v).mula = s.mula := rfl
@[simp] theorem State.setMuln_muln (v : Data) : (s.setMuln v).muln = v := rfl
@[simp] theorem State.setMuln_tabcfg (v : Data) : (s.setMuln v).tabcfg = s.tabcfg := rfl
@[simp] theorem State.setMuln_tabseed (v : Data) : (s.setMuln v).tabseed = s.tabseed := rfl
@[simp] theorem State.setMuln_table (v : Data) : (s.setMuln v).table = s.table := rfl
@[simp] theorem State.setMuln_resets (v : Data) : (s.setMuln v).resets = s.resets := rfl
@[simp] theorem State.setMuln_draws (v : Data) : (s.setMuln v).draws = s.draws := rfl
@[simp] theorem State.setMuln_inputs (v : Data) : (s.setMuln v).inputs = s.inputs := rfl
@[simp] theorem State.setMuln_responses (v : Data) : (s.setMuln v).responses = s.responses := rfl
@[simp] theorem State.setMuln_cell (v : Data) (c r : Nat) : (s.setMuln v).cell c r = s.cell c r := rfl
@[simp] theorem State.setMuln_memRead (v : Data) (w : Width) (c r : Nat) : (s.setMuln v).memRead w c r = s.memRead w c r := rfl
@[simp] theorem State.setMuln_tabrdy (v : Data) : (s.setMuln v).tabrdy = s.tabrdy := rfl
@[simp] theorem State.setMuln_err (v : Data) : (s.setMuln v).err = s.err := rfl

@[simp] theorem State.setTabcfg_status (v : Data) : (s.setTabcfg v).status = s.status := rfl
@[simp] theorem State.setTabcfg_ecause (v : Data) : (s.setTabcfg v).ecause = s.ecause := rfl
@[simp] theorem State.setTabcfg_ecmd (v : Data) : (s.setTabcfg v).ecmd = s.ecmd := rfl
@[simp] theorem State.setTabcfg_mulcfg (v : Data) : (s.setTabcfg v).mulcfg = s.mulcfg := rfl
@[simp] theorem State.setTabcfg_mula (v : Data) : (s.setTabcfg v).mula = s.mula := rfl
@[simp] theorem State.setTabcfg_muln (v : Data) : (s.setTabcfg v).muln = s.muln := rfl
@[simp] theorem State.setTabcfg_tabcfg (v : Data) : (s.setTabcfg v).tabcfg = v := rfl
@[simp] theorem State.setTabcfg_tabseed (v : Data) : (s.setTabcfg v).tabseed = s.tabseed := rfl
@[simp] theorem State.setTabcfg_table (v : Data) : (s.setTabcfg v).table = s.table := rfl
@[simp] theorem State.setTabcfg_resets (v : Data) : (s.setTabcfg v).resets = s.resets := rfl
@[simp] theorem State.setTabcfg_draws (v : Data) : (s.setTabcfg v).draws = s.draws := rfl
@[simp] theorem State.setTabcfg_inputs (v : Data) : (s.setTabcfg v).inputs = s.inputs := rfl
@[simp] theorem State.setTabcfg_responses (v : Data) : (s.setTabcfg v).responses = s.responses := rfl
@[simp] theorem State.setTabcfg_cell (v : Data) (c r : Nat) : (s.setTabcfg v).cell c r = s.cell c r := rfl
@[simp] theorem State.setTabcfg_memRead (v : Data) (w : Width) (c r : Nat) : (s.setTabcfg v).memRead w c r = s.memRead w c r := rfl
@[simp] theorem State.setTabcfg_tabrdy (v : Data) : (s.setTabcfg v).tabrdy = s.tabrdy := rfl
@[simp] theorem State.setTabcfg_err (v : Data) : (s.setTabcfg v).err = s.err := rfl

@[simp] theorem State.setTabseed_status (v : Data) : (s.setTabseed v).status = s.status := rfl
@[simp] theorem State.setTabseed_ecause (v : Data) : (s.setTabseed v).ecause = s.ecause := rfl
@[simp] theorem State.setTabseed_ecmd (v : Data) : (s.setTabseed v).ecmd = s.ecmd := rfl
@[simp] theorem State.setTabseed_mulcfg (v : Data) : (s.setTabseed v).mulcfg = s.mulcfg := rfl
@[simp] theorem State.setTabseed_mula (v : Data) : (s.setTabseed v).mula = s.mula := rfl
@[simp] theorem State.setTabseed_muln (v : Data) : (s.setTabseed v).muln = s.muln := rfl
@[simp] theorem State.setTabseed_tabcfg (v : Data) : (s.setTabseed v).tabcfg = s.tabcfg := rfl
@[simp] theorem State.setTabseed_tabseed (v : Data) : (s.setTabseed v).tabseed = v := rfl
@[simp] theorem State.setTabseed_table (v : Data) : (s.setTabseed v).table = s.table := rfl
@[simp] theorem State.setTabseed_resets (v : Data) : (s.setTabseed v).resets = s.resets := rfl
@[simp] theorem State.setTabseed_draws (v : Data) : (s.setTabseed v).draws = s.draws := rfl
@[simp] theorem State.setTabseed_inputs (v : Data) : (s.setTabseed v).inputs = s.inputs := rfl
@[simp] theorem State.setTabseed_responses (v : Data) : (s.setTabseed v).responses = s.responses := rfl
@[simp] theorem State.setTabseed_cell (v : Data) (c r : Nat) : (s.setTabseed v).cell c r = s.cell c r := rfl
@[simp] theorem State.setTabseed_memRead (v : Data) (w : Width) (c r : Nat) : (s.setTabseed v).memRead w c r = s.memRead w c r := rfl
@[simp] theorem State.setTabseed_tabrdy (v : Data) : (s.setTabseed v).tabrdy = s.tabrdy := rfl
@[simp] theorem State.setTabseed_err (v : Data) : (s.setTabseed v).err = s.err := rfl

@[simp] theorem State.setTable_status (v : Memory) : (s.setTable v).status = s.status := rfl
@[simp] theorem State.setTable_ecause (v : Memory) : (s.setTable v).ecause = s.ecause := rfl
@[simp] theorem State.setTable_ecmd (v : Memory) : (s.setTable v).ecmd = s.ecmd := rfl
@[simp] theorem State.setTable_mulcfg (v : Memory) : (s.setTable v).mulcfg = s.mulcfg := rfl
@[simp] theorem State.setTable_mula (v : Memory) : (s.setTable v).mula = s.mula := rfl
@[simp] theorem State.setTable_muln (v : Memory) : (s.setTable v).muln = s.muln := rfl
@[simp] theorem State.setTable_tabcfg (v : Memory) : (s.setTable v).tabcfg = s.tabcfg := rfl
@[simp] theorem State.setTable_tabseed (v : Memory) : (s.setTable v).tabseed = s.tabseed := rfl
@[simp] theorem State.setTable_table (v : Memory) : (s.setTable v).table = v := rfl
@[simp] theorem State.setTable_resets (v : Memory) : (s.setTable v).resets = s.resets := rfl
@[simp] theorem State.setTable_draws (v : Memory) : (s.setTable v).draws = s.draws := rfl
@[simp] theorem State.setTable_inputs (v : Memory) : (s.setTable v).inputs = s.inputs := rfl
@[simp] theorem State.setTable_responses (v : Memory) : (s.setTable v).responses = s.responses := rfl
@[simp] theorem State.setTable_tabrdy (v : Memory) : (s.setTable v).tabrdy = s.tabrdy := rfl
@[simp] theorem State.setTable_err (v : Memory) : (s.setTable v).err = s.err := rfl

@[simp] theorem State.addDraws_status (v : Nat) : (s.addDraws v).status = s.status := rfl
@[simp] theorem State.addDraws_ecause (v : Nat) : (s.addDraws v).ecause = s.ecause := rfl
@[simp] theorem State.addDraws_ecmd (v : Nat) : (s.addDraws v).ecmd = s.ecmd := rfl
@[simp] theorem State.addDraws_mulcfg (v : Nat) : (s.addDraws v).mulcfg = s.mulcfg := rfl
@[simp] theorem State.addDraws_mula (v : Nat) : (s.addDraws v).mula = s.mula := rfl
@[simp] theorem State.addDraws_muln (v : Nat) : (s.addDraws v).muln = s.muln := rfl
@[simp] theorem State.addDraws_tabcfg (v : Nat) : (s.addDraws v).tabcfg = s.tabcfg := rfl
@[simp] theorem State.addDraws_tabseed (v : Nat) : (s.addDraws v).tabseed = s.tabseed := rfl
@[simp] theorem State.addDraws_table (v : Nat) : (s.addDraws v).table = s.table := rfl
@[simp] theorem State.addDraws_resets (v : Nat) : (s.addDraws v).resets = s.resets := rfl
@[simp] theorem State.addDraws_draws (v : Nat) : (s.addDraws v).draws = s.draws + v := rfl
@[simp] theorem State.addDraws_inputs (v : Nat) : (s.addDraws v).inputs = s.inputs := rfl
@[simp] theorem State.addDraws_responses (v : Nat) : (s.addDraws v).responses = s.responses := rfl
@[simp] theorem State.addDraws_cell (v : Nat) (c r : Nat) : (s.addDraws v).cell c r = s.cell c r := rfl
@[simp] theorem State.addDraws_memRead (v : Nat) (w : Width) (c r : Nat) : (s.addDraws v).memRead w c r = s.memRead w c r := rfl
@[simp] theorem State.addDraws_tabrdy (v : Nat) : (s.addDraws v).tabrdy = s.tabrdy := rfl
@[simp] theorem State.addDraws_err (v : Nat) : (s.addDraws v).err = s.err := rfl

@[simp] theorem State.setInputs_status (v : List Input) : (s.setInputs v).status = s.status := rfl
@[simp] theorem State.setInputs_ecause (v : List Input) : (s.setInputs v).ecause = s.ecause := rfl
@[simp] theorem State.setInputs_ecmd (v : List Input) : (s.setInputs v).ecmd = s.ecmd := rfl
@[simp] theorem State.setInputs_mulcfg (v : List Input) : (s.setInputs v).mulcfg = s.mulcfg := rfl
@[simp] theorem State.setInputs_mula (v : List Input) : (s.setInputs v).mula = s.mula := rfl
@[simp] theorem State.setInputs_muln (v : List Input) : (s.setInputs v).muln = s.muln := rfl
@[simp] theorem State.setInputs_tabcfg (v : List Input) : (s.setInputs v).tabcfg = s.tabcfg := rfl
@[simp] theorem State.setInputs_tabseed (v : List Input) : (s.setInputs v).tabseed = s.tabseed := rfl
@[simp] theorem State.setInputs_table (v : List Input) : (s.setInputs v).table = s.table := rfl
@[simp] theorem State.setInputs_resets (v : List Input) : (s.setInputs v).resets = s.resets := rfl
@[simp] theorem State.setInputs_draws (v : List Input) : (s.setInputs v).draws = s.draws := rfl
@[simp] theorem State.setInputs_inputs (v : List Input) : (s.setInputs v).inputs = v := rfl
@[simp] theorem State.setInputs_responses (v : List Input) : (s.setInputs v).responses = s.responses := rfl
@[simp] theorem State.setInputs_cell (v : List Input) (c r : Nat) : (s.setInputs v).cell c r = s.cell c r := rfl
@[simp] theorem State.setInputs_memRead (v : List Input) (w : Width) (c r : Nat) : (s.setInputs v).memRead w c r = s.memRead w c r := rfl
@[simp] theorem State.setInputs_tabrdy (v : List Input) : (s.setInputs v).tabrdy = s.tabrdy := rfl
@[simp] theorem State.setInputs_err (v : List Input) : (s.setInputs v).err = s.err := rfl

@[simp] theorem State.addResponse_status (v : Response) : (s.addResponse v).status = s.status := rfl
@[simp] theorem State.addResponse_ecause (v : Response) : (s.addResponse v).ecause = s.ecause := rfl
@[simp] theorem State.addResponse_ecmd (v : Response) : (s.addResponse v).ecmd = s.ecmd := rfl
@[simp] theorem State.addResponse_mulcfg (v : Response) : (s.addResponse v).mulcfg = s.mulcfg := rfl
@[simp] theorem State.addResponse_mula (v : Response) : (s.addResponse v).mula = s.mula := rfl
@[simp] theorem State.addResponse_muln (v : Response) : (s.addResponse v).muln = s.muln := rfl
@[simp] theorem State.addResponse_tabcfg (v : Response) : (s.addResponse v).tabcfg = s.tabcfg := rfl
@[simp] theorem State.addResponse_tabseed (v : Response) : (s.addResponse v).tabseed = s.tabseed := rfl
@[simp] theorem State.addResponse_table (v : Response) : (s.addResponse v).table = s.table := rfl
@[simp] theorem State.addResponse_resets (v : Response) : (s.addResponse v).resets = s.resets := rfl
@[simp] theorem State.addResponse_draws (v : Response) : (s.addResponse v).draws = s.draws := rfl
@[simp] theorem State.addResponse_inputs (v : Response) : (s.addResponse v).inputs = s.inputs := rfl
@[simp] theorem State.addResponse_responses (v : Response) : (s.addResponse v).responses = s.responses ++ [v] := rfl
@[simp] theorem State.addResponse_cell (v : Response) (c r : Nat) : (s.addResponse v).cell c r = s.cell c r := rfl
@[simp] theorem State.addResponse_memRead (v : Response) (w : Width) (c r : Nat) : (s.addResponse v).memRead w c r = s.memRead w c r := rfl
@[simp] theorem State.addResponse_tabrdy (v : Response) : (s.addResponse v).tabrdy = s.tabrdy := rfl
@[simp] theorem State.addResponse_err (v : Response) : (s.addResponse v).err = s.err := rfl

@[simp] theorem State.setTabrdy_status (v : Bool) : (s.setTabrdy v).status = assignBit s.status 0 v := rfl
@[simp] theorem State.setTabrdy_ecause (v : Bool) : (s.setTabrdy v).ecause = s.ecause := rfl
@[simp] theorem State.setTabrdy_ecmd (v : Bool) : (s.setTabrdy v).ecmd = s.ecmd := rfl
@[simp] theorem State.setTabrdy_mulcfg (v : Bool) : (s.setTabrdy v).mulcfg = s.mulcfg := rfl
@[simp] theorem State.setTabrdy_mula (v : Bool) : (s.setTabrdy v).mula = s.mula := rfl
@[simp] theorem State.setTabrdy_muln (v : Bool) : (s.setTabrdy v).muln = s.muln := rfl
@[simp] theorem State.setTabrdy_tabcfg (v : Bool) : (s.setTabrdy v).tabcfg = s.tabcfg := rfl
@[simp] theorem State.setTabrdy_tabseed (v : Bool) : (s.setTabrdy v).tabseed = s.tabseed := rfl
@[simp] theorem State.setTabrdy_table (v : Bool) : (s.setTabrdy v).table = s.table := rfl
@[simp] theorem State.setTabrdy_resets (v : Bool) : (s.setTabrdy v).resets = s.resets := rfl
@[simp] theorem State.setTabrdy_draws (v : Bool) : (s.setTabrdy v).draws = s.draws := rfl
@[simp] theorem State.setTabrdy_inputs (v : Bool) : (s.setTabrdy v).inputs = s.inputs := rfl
@[simp] theorem State.setTabrdy_responses (v : Bool) : (s.setTabrdy v).responses = s.responses := rfl
@[simp] theorem State.setTabrdy_cell (v : Bool) (c r : Nat) : (s.setTabrdy v).cell c r = s.cell c r := rfl
@[simp] theorem State.setTabrdy_memRead (v : Bool) (w : Width) (c r : Nat) : (s.setTabrdy v).memRead w c r = s.memRead w c r := rfl

@[simp] theorem State.setErr_status (v : Bool) : (s.setErr v).status = assignBit s.status 1 v := rfl
@[simp] theorem State.setErr_ecause (v : Bool) : (s.setErr v).ecause = s.ecause := rfl
@[simp] theorem State.setErr_ecmd (v : Bool) : (s.setErr v).ecmd = s.ecmd := rfl
@[simp] theorem State.setErr_mulcfg (v : Bool) : (s.setErr v).mulcfg = s.mulcfg := rfl
@[simp] theorem State.setErr_mula (v : Bool) : (s.setErr v).mula = s.mula := rfl
@[simp] theorem State.setErr_muln (v : Bool) : (s.setErr v).muln = s.muln := rfl
@[simp] theorem State.setErr_tabcfg (v : Bool) : (s.setErr v).tabcfg = s.tabcfg := rfl
@[simp] theorem State.setErr_tabseed (v : Bool) : (s.setErr v).tabseed = s.tabseed := rfl
@[simp] theorem State.setErr_table (v : Bool) : (s.setErr v).table = s.table := rfl
@[simp] theorem State.setErr_resets (v : Bool) : (s.setErr v).resets = s.resets := rfl
@[simp] theorem State.setErr_draws (v : Bool) : (s.setErr v).draws = s.draws := rfl
@[simp] theorem State.setErr_inputs (v : Bool) : (s.setErr v).inputs = s.inputs := rfl
@[simp] theorem State.setErr_responses (v : Bool) : (s.setErr v).responses = s.responses := rfl
@[simp] theorem State.setErr_cell (v : Bool) (c r : Nat) : (s.setErr v).cell c r = s.cell c r := rfl
@[simp] theorem State.setErr_memRead (v : Bool) (w : Width) (c r : Nat) : (s.setErr v).memRead w c r = s.memRead w c r := rfl

end Sys2Proof.Machine
end

