-- ==== Sys2Proof/Laws/Flags.lean ====
section
/-! SUPPORT. The flags `TABRDY` and `ERR` after each flag update, and that the other bits of `STATUS` stay. -/

namespace Sys2Proof.Machine

theorem assignBit_getLsbD (v : Data) (i j : Nat) (b : Bool) (hi : i < 64) :
    (assignBit v i b).getLsbD j = if j = i then b else v.getLsbD j := by
  by_cases hj : j < 64
  · cases b <;> by_cases hij : j = i
    all_goals simp [assignBit, hj, hij, hi]
  · rw [if_neg (by omega), BitVec.getLsbD_of_ge _ _ (by omega), BitVec.getLsbD_of_ge _ _ (by omega)]

theorem assignBit_reserved (v : Data) (i : Nat) (b : Bool) (hi : i < 2) :
    (assignBit v i b).extractLsb' 2 62 = v.extractLsb' 2 62 := by
  apply BitVec.eq_of_getLsbD_eq
  intro j hj
  simp only [BitVec.getLsbD_extractLsb', assignBit_getLsbD _ _ _ _ (show i < 64 by omega)]
  rw [if_neg (by omega)]

@[simp] theorem State.setTabrdy_tabrdy (s : State) (b : Bool) : (s.setTabrdy b).tabrdy = b :=
  (assignBit_getLsbD s.status 0 0 b (by decide)).trans (if_pos rfl)

@[simp] theorem State.setTabrdy_err (s : State) (b : Bool) : (s.setTabrdy b).err = s.err :=
  (assignBit_getLsbD s.status 0 1 b (by decide)).trans (if_neg (by decide))

@[simp] theorem State.setErr_err (s : State) (b : Bool) : (s.setErr b).err = b :=
  (assignBit_getLsbD s.status 1 1 b (by decide)).trans (if_pos rfl)

@[simp] theorem State.setErr_tabrdy (s : State) (b : Bool) : (s.setErr b).tabrdy = s.tabrdy :=
  (assignBit_getLsbD s.status 1 0 b (by decide)).trans (if_neg (by decide))

end Sys2Proof.Machine
end

