-- ==== Sys2Proof/Laws/Memory.lean ====
section
/-! SUPPORT. The table memory: a read after a write, a write elsewhere, the fill, and that every operation keeps the
canonical form. -/

namespace Sys2Proof.Machine

theorem Memory.read?_write_same (k : Nat) (v : Data) (m : Memory) :
    Memory.read? k (Memory.write k v m) = some v := by
  induction m with
  | nil => simp [Memory.write, Memory.read?]
  | cons e m ih =>
    obtain ⟨b, u⟩ := e
    simp only [Memory.write]
    split
    · simp [Memory.read?]
    · split
      · simp [Memory.read?]
      · simp [Memory.read?, *]

theorem Memory.read?_write_other {k k' : Nat} (h : k' ≠ k) (v : Data) (m : Memory) :
    Memory.read? k' (Memory.write k v m) = Memory.read? k' m := by
  induction m with
  | nil => simp [Memory.write, Memory.read?, h]
  | cons e m ih =>
    obtain ⟨b, u⟩ := e
    simp only [Memory.write]
    split
    · simp [Memory.read?, h]
    · split
      · rename_i hb
        subst hb
        simp [Memory.read?, h]
      · simp only [Memory.read?, ih]

theorem Memory.within_weaken {lo lo' hi : Nat} (h : lo' ≤ lo) {m : Memory}
    (hm : Memory.within lo hi m = true) : Memory.within lo' hi m = true := by
  cases m with
  | nil => rfl
  | cons e m =>
    obtain ⟨b, u⟩ := e
    simp only [Memory.within, Bool.and_eq_true, decide_eq_true_eq] at hm ⊢
    exact ⟨⟨by omega, hm.1.2⟩, hm.2⟩

theorem Memory.within_write {k lo hi : Nat} (hlo : lo ≤ k) (hhi : k < hi) (v : Data) {m : Memory}
    (hm : Memory.within lo hi m = true) : Memory.within lo hi (Memory.write k v m) = true := by
  induction m generalizing lo with
  | nil => simp [Memory.write, Memory.within, hlo, hhi]
  | cons e m ih =>
    obtain ⟨b, u⟩ := e
    simp only [Memory.within, Bool.and_eq_true, decide_eq_true_eq] at hm
    simp only [Memory.write]
    split
    · simp only [Memory.within, Bool.and_eq_true, decide_eq_true_eq]
      exact ⟨⟨hlo, hhi⟩, ⟨⟨by omega, hm.1.2⟩, hm.2⟩⟩
    · split
      · simp only [Memory.within, Bool.and_eq_true, decide_eq_true_eq]
        rename_i hkb
        subst hkb
        exact hm
      · simp only [Memory.within, Bool.and_eq_true, decide_eq_true_eq]
        exact ⟨hm.1, ih (by omega) hm.2⟩

theorem Memory.read?_append (k : Nat) (m n : Memory) :
    Memory.read? k (m ++ n) = (Memory.read? k m).or (Memory.read? k n) := by
  induction m with
  | nil => simp [Memory.read?]
  | cons e m ih =>
    obtain ⟨b, u⟩ := e
    simp only [List.cons_append, Memory.read?, ih]
    split <;> simp

theorem Memory.read?_filter {n k : Nat} (h : n ≤ k) (m : Memory) :
    Memory.read? k (m.filter (fun e => decide (n ≤ e.1))) = Memory.read? k m := by
  induction m with
  | nil => rfl
  | cons e m ih =>
    obtain ⟨b, u⟩ := e
    by_cases hb : n ≤ b
    · simp [hb, Memory.read?, ih]
    · simp only [hb, decide_false, List.filter_cons, Memory.read?, Bool.false_eq_true, if_false, ih]
      rw [if_neg (by omega)]

theorem Memory.read?_run (k n : Nat) (f : Nat → Data) :
    Memory.read? k ((List.range n).map (fun j => (j, f j))) = if k < n then some (f k) else none := by
  induction n with
  | zero => simp [Memory.read?]
  | succ n ih =>
    rw [List.range_succ, List.map_append, Memory.read?_append, ih]
    by_cases h1 : k < n
    · simp [h1, Nat.lt_succ_of_lt h1]
    · by_cases h2 : k = n
      · subst h2; simp [Memory.read?]
      · simp [h1, h2, Memory.read?, show ¬ k < n + 1 by omega]

theorem Memory.read?_fill_below {k n : Nat} (h : k < n) (f : Nat → Data) (m : Memory) :
    Memory.read? k (Memory.fill n f m) = some (f k) := by
  simp [Memory.fill, Memory.read?_append, Memory.read?_run, h]

theorem Memory.read?_fill_above {k n : Nat} (h : n ≤ k) (f : Nat → Data) (m : Memory) :
    Memory.read? k (Memory.fill n f m) = Memory.read? k m := by
  simp [Memory.fill, Memory.read?_append, Memory.read?_run, Memory.read?_filter h, Nat.not_lt.mpr h]

theorem Memory.filter_self {lo hi n : Nat} (hn : n ≤ lo) {m : Memory} (hm : Memory.within lo hi m = true) :
    m.filter (fun e => decide (n ≤ e.1)) = m := by
  induction m generalizing lo with
  | nil => rfl
  | cons e m ih =>
    obtain ⟨b, u⟩ := e
    simp only [Memory.within, Bool.and_eq_true, decide_eq_true_eq] at hm
    simp [show n ≤ b by omega, ih (show n ≤ b + 1 by omega) hm.2]

theorem Memory.within_filter {lo hi n : Nat} {m : Memory} (hm : Memory.within lo hi m = true) :
    Memory.within n hi (m.filter (fun e => decide (n ≤ e.1))) = true := by
  induction m generalizing lo with
  | nil => rfl
  | cons e m ih =>
    obtain ⟨b, u⟩ := e
    simp only [Memory.within, Bool.and_eq_true, decide_eq_true_eq] at hm
    by_cases hb : n ≤ b
    · simp only [hb, decide_true, List.filter_cons, if_true, Memory.within, Bool.and_eq_true, decide_eq_true_eq,
        Memory.filter_self (show n ≤ b + 1 by omega) hm.2]
      exact ⟨⟨trivial, hm.1.2⟩, hm.2⟩
    · simp only [hb, decide_false, List.filter_cons, Bool.false_eq_true, if_false]
      exact ih hm.2

theorem Memory.within_run_append {hi n : Nat} (hn : n ≤ hi) (f : Nat → Data) {m : Memory}
    (hm : Memory.within n hi m = true) (d : Nat) (hd : d ≤ n) :
    Memory.within (n - d) hi ((List.range' (n - d) d).map (fun j => (j, f j)) ++ m) = true := by
  induction d with
  | zero => simpa using hm
  | succ d ih =>
    have hstep : n - (d + 1) + 1 = n - d := by omega
    rw [List.range'_succ, hstep]
    simp only [List.map_cons, List.cons_append, Memory.within, Bool.and_eq_true, decide_eq_true_eq]
    refine ⟨⟨Nat.le_refl _, by omega⟩, ?_⟩
    rw [hstep]
    exact ih (by omega)

theorem Memory.within_fill {n hi : Nat} (hn : n ≤ hi) (f : Nat → Data) {m : Memory}
    (hm : Memory.within 0 hi m = true) : Memory.within 0 hi (Memory.fill n f m) = true := by
  have h := Memory.within_run_append hn f (Memory.within_filter (n := n) hm) n (Nat.le_refl n)
  simpa [Memory.fill, List.range_eq_range'] using h

theorem Memory.wf_write {k : Nat} (hk : k < tableCols * tableRows) (v : Data) {m : Memory}
    (hm : Memory.wf m = true) : Memory.wf (Memory.write k v m) = true :=
  Memory.within_write (Nat.zero_le k) hk v hm

theorem Memory.wf_fill {n : Nat} (hn : n ≤ tableCols * tableRows) (f : Nat → Data) {m : Memory}
    (hm : Memory.wf m = true) : Memory.wf (Memory.fill n f m) = true :=
  Memory.within_fill hn f hm

theorem Memory.wf_reset : Memory.wf State.reset.table = true := rfl

/-- A read of a canonical memory does not depend on how it was built: equal reads mean equal lists. -/
theorem Memory.ext_within {lo hi : Nat} {m n : Memory} (hm : Memory.within lo hi m = true)
    (hn : Memory.within lo hi n = true) (h : ∀ k, Memory.read? k m = Memory.read? k n) : m = n := by
  have low : ∀ (lo : Nat) (m : Memory), Memory.within lo hi m = true → ∀ k, k < lo → Memory.read? k m = none := by
    intro lo m
    induction m generalizing lo with
    | nil => intros; rfl
    | cons e m ih =>
      obtain ⟨b, u⟩ := e
      intro hw k hk
      simp only [Memory.within, Bool.and_eq_true, decide_eq_true_eq] at hw
      simp [Memory.read?, show ¬ k = b by omega, ih (b + 1) hw.2 k (by omega)]
  induction m generalizing n lo with
  | nil =>
    cases n with
    | nil => rfl
    | cons e n =>
      obtain ⟨b, u⟩ := e
      have := h b
      simp [Memory.read?] at this
  | cons e m ih =>
    obtain ⟨b, u⟩ := e
    cases n with
    | nil => have := h b; simp [Memory.read?] at this
    | cons e' n =>
      obtain ⟨b', u'⟩ := e'
      simp only [Memory.within, Bool.and_eq_true, decide_eq_true_eq] at hm hn
      have hb : b = b' := by
        rcases Nat.lt_trichotomy b b' with hlt | heq | hgt
        · have := h b
          simp [Memory.read?, show ¬ b = b' by omega, low (b' + 1) n hn.2 b (by omega)] at this
        · exact heq
        · have := h b'
          simp [Memory.read?, show ¬ b' = b by omega, low (b + 1) m hm.2 b' (by omega)] at this
      subst hb
      have hu : u = u' := by have := h b; simpa [Memory.read?] using this
      subst hu
      have ht : ∀ k, Memory.read? k m = Memory.read? k n := by
        intro k
        by_cases hk : k = b
        · subst hk
          rw [low (k + 1) m hm.2 k (by omega), low (k + 1) n hn.2 k (by omega)]
        · have := h k
          simpa [Memory.read?, hk] using this
      rw [ih hm.2 hn.2 ht]

end Sys2Proof.Machine
end

