-- ==== Sys2Proof/Laws/Ops.lean ====
section
/-! SUPPORT. What each shared operation does: the outcome of `respond` and `raise`, and what the error record, the
cells, the registers and reset are after each operation over them. -/

namespace Sys2Proof.Machine

variable (s : State)

theorem respond_eq (d : Data) : respond d s = .next (s.addResponse ⟨.ok, d⟩) := rfl

theorem raise_eq (e : Status) (w : CmdWord) :
    raise e w s = .next ((s.recordError e w).addResponse ⟨e, 0#64⟩) := rfl

/-! Error entry. -/

theorem State.recordError_of_err (h : s.err = true) (e : Status) (w : CmdWord) : s.recordError e w = s := by
  simp [State.recordError, h]

theorem State.recordError_of_clear (h : s.err = false) (e : Status) (w : CmdWord) :
    s.recordError e w = ((s.setEcause ((statusCode e).setWidth 64)).setEcmd (w.setWidth 64)).setErr true := by
  simp [State.recordError, h]

@[simp] theorem State.recordError_mulcfg (e : Status) (w : CmdWord) : (s.recordError e w).mulcfg = s.mulcfg := by unfold State.recordError; split <;> rfl
@[simp] theorem State.recordError_mula (e : Status) (w : CmdWord) : (s.recordError e w).mula = s.mula := by unfold State.recordError; split <;> rfl
@[simp] theorem State.recordError_muln (e : Status) (w : CmdWord) : (s.recordError e w).muln = s.muln := by unfold State.recordError; split <;> rfl
@[simp] theorem State.recordError_tabcfg (e : Status) (w : CmdWord) : (s.recordError e w).tabcfg = s.tabcfg := by unfold State.recordError; split <;> rfl
@[simp] theorem State.recordError_tabseed (e : Status) (w : CmdWord) : (s.recordError e w).tabseed = s.tabseed := by unfold State.recordError; split <;> rfl
@[simp] theorem State.recordError_table (e : Status) (w : CmdWord) : (s.recordError e w).table = s.table := by unfold State.recordError; split <;> rfl
@[simp] theorem State.recordError_resets (e : Status) (w : CmdWord) : (s.recordError e w).resets = s.resets := by unfold State.recordError; split <;> rfl
@[simp] theorem State.recordError_draws (e : Status) (w : CmdWord) : (s.recordError e w).draws = s.draws := by unfold State.recordError; split <;> rfl
@[simp] theorem State.recordError_inputs (e : Status) (w : CmdWord) : (s.recordError e w).inputs = s.inputs := by unfold State.recordError; split <;> rfl
@[simp] theorem State.recordError_responses (e : Status) (w : CmdWord) : (s.recordError e w).responses = s.responses := by unfold State.recordError; split <;> rfl
@[simp] theorem State.recordError_cell (e : Status) (w : CmdWord) (c r : Nat) :
    (s.recordError e w).cell c r = s.cell c r := by unfold State.recordError; split <;> rfl
@[simp] theorem State.recordError_tabrdy (e : Status) (w : CmdWord) : (s.recordError e w).tabrdy = s.tabrdy := by
  unfold State.recordError; split <;> simp
@[simp] theorem State.recordError_err (e : Status) (w : CmdWord) : (s.recordError e w).err = true := by
  unfold State.recordError; split <;> simp_all
theorem State.recordError_reserved (e : Status) (w : CmdWord) :
    (s.recordError e w).status.extractLsb' 2 62 = s.status.extractLsb' 2 62 := by
  unfold State.recordError
  split
  · rfl
  · exact assignBit_reserved _ _ _ (by decide)

/-! Clearing the record. -/

@[simp] theorem State.clearRecord_ecause : s.clearRecord.ecause = 0#64 := rfl
@[simp] theorem State.clearRecord_ecmd : s.clearRecord.ecmd = 0#64 := rfl
@[simp] theorem State.clearRecord_mulcfg : (s.clearRecord).mulcfg = s.mulcfg := rfl
@[simp] theorem State.clearRecord_mula : (s.clearRecord).mula = s.mula := rfl
@[simp] theorem State.clearRecord_muln : (s.clearRecord).muln = s.muln := rfl
@[simp] theorem State.clearRecord_tabcfg : (s.clearRecord).tabcfg = s.tabcfg := rfl
@[simp] theorem State.clearRecord_tabseed : (s.clearRecord).tabseed = s.tabseed := rfl
@[simp] theorem State.clearRecord_table : (s.clearRecord).table = s.table := rfl
@[simp] theorem State.clearRecord_resets : (s.clearRecord).resets = s.resets := rfl
@[simp] theorem State.clearRecord_draws : (s.clearRecord).draws = s.draws := rfl
@[simp] theorem State.clearRecord_inputs : (s.clearRecord).inputs = s.inputs := rfl
@[simp] theorem State.clearRecord_responses : (s.clearRecord).responses = s.responses := rfl
@[simp] theorem State.clearRecord_cell (c r : Nat) : s.clearRecord.cell c r = s.cell c r := rfl
@[simp] theorem State.clearRecord_tabrdy : s.clearRecord.tabrdy = s.tabrdy := State.setErr_tabrdy s false
@[simp] theorem State.clearRecord_err : s.clearRecord.err = false := State.setErr_err s false
theorem State.clearRecord_reserved :
    s.clearRecord.status.extractLsb' 2 62 = s.status.extractLsb' 2 62 := assignBit_reserved _ _ _ (by decide)

/-! Table cells. -/

@[simp] theorem State.memWrite_status (w : Width) (c r : Nat) (v : Data) : (s.memWrite w c r v).status = s.status := rfl
@[simp] theorem State.memWrite_ecause (w : Width) (c r : Nat) (v : Data) : (s.memWrite w c r v).ecause = s.ecause := rfl
@[simp] theorem State.memWrite_ecmd (w : Width) (c r : Nat) (v : Data) : (s.memWrite w c r v).ecmd = s.ecmd := rfl
@[simp] theorem State.memWrite_mulcfg (w : Width) (c r : Nat) (v : Data) : (s.memWrite w c r v).mulcfg = s.mulcfg := rfl
@[simp] theorem State.memWrite_mula (w : Width) (c r : Nat) (v : Data) : (s.memWrite w c r v).mula = s.mula := rfl
@[simp] theorem State.memWrite_muln (w : Width) (c r : Nat) (v : Data) : (s.memWrite w c r v).muln = s.muln := rfl
@[simp] theorem State.memWrite_tabcfg (w : Width) (c r : Nat) (v : Data) : (s.memWrite w c r v).tabcfg = s.tabcfg := rfl
@[simp] theorem State.memWrite_tabseed (w : Width) (c r : Nat) (v : Data) : (s.memWrite w c r v).tabseed = s.tabseed := rfl
@[simp] theorem State.memWrite_resets (w : Width) (c r : Nat) (v : Data) : (s.memWrite w c r v).resets = s.resets := rfl
@[simp] theorem State.memWrite_draws (w : Width) (c r : Nat) (v : Data) : (s.memWrite w c r v).draws = s.draws := rfl
@[simp] theorem State.memWrite_inputs (w : Width) (c r : Nat) (v : Data) : (s.memWrite w c r v).inputs = s.inputs := rfl
@[simp] theorem State.memWrite_responses (w : Width) (c r : Nat) (v : Data) : (s.memWrite w c r v).responses = s.responses := rfl
@[simp] theorem State.memWrite_tabrdy (w : Width) (c r : Nat) (v : Data) : (s.memWrite w c r v).tabrdy = s.tabrdy := rfl
@[simp] theorem State.memWrite_err (w : Width) (c r : Nat) (v : Data) : (s.memWrite w c r v).err = s.err := rfl
theorem cellNumber_inj {c c' r r' : Nat} (hr : r < 256) (hr' : r' < 256)
    (h : cellNumber c r = cellNumber c' r') : c = c' ∧ r = r' := by
  simp only [cellNumber, tableRows] at h
  omega
theorem cellNumber_lt {c r : Nat} (hc : c < 8) (hr : r < 256) : cellNumber c r < tableCols * tableRows := by
  simp only [cellNumber, tableRows, tableCols]
  omega
theorem State.memWrite_cell_same (w : Width) (c r : Nat) (v : Data) : (s.memWrite w c r v).cell c r = w.view v := by
  simp [State.memWrite, State.cell, Memory.read?_write_same]
theorem State.memWrite_cell_other (w : Width) {c r c' r' : Nat} (h : cellNumber c' r' ≠ cellNumber c r) (v : Data) :
    (s.memWrite w c r v).cell c' r' = s.cell c' r' := by
  simp [State.memWrite, State.cell, Memory.read?_write_other h]
@[simp] theorem State.fillColumns_status (w : Width) (n : Nat) : (s.fillColumns w n).status = s.status := rfl
@[simp] theorem State.fillColumns_ecause (w : Width) (n : Nat) : (s.fillColumns w n).ecause = s.ecause := rfl
@[simp] theorem State.fillColumns_ecmd (w : Width) (n : Nat) : (s.fillColumns w n).ecmd = s.ecmd := rfl
@[simp] theorem State.fillColumns_mulcfg (w : Width) (n : Nat) : (s.fillColumns w n).mulcfg = s.mulcfg := rfl
@[simp] theorem State.fillColumns_mula (w : Width) (n : Nat) : (s.fillColumns w n).mula = s.mula := rfl
@[simp] theorem State.fillColumns_muln (w : Width) (n : Nat) : (s.fillColumns w n).muln = s.muln := rfl
@[simp] theorem State.fillColumns_tabcfg (w : Width) (n : Nat) : (s.fillColumns w n).tabcfg = s.tabcfg := rfl
@[simp] theorem State.fillColumns_tabseed (w : Width) (n : Nat) : (s.fillColumns w n).tabseed = s.tabseed := rfl
@[simp] theorem State.fillColumns_resets (w : Width) (n : Nat) : (s.fillColumns w n).resets = s.resets := rfl
@[simp] theorem State.fillColumns_inputs (w : Width) (n : Nat) : (s.fillColumns w n).inputs = s.inputs := rfl
@[simp] theorem State.fillColumns_responses (w : Width) (n : Nat) : (s.fillColumns w n).responses = s.responses := rfl
@[simp] theorem State.fillColumns_tabrdy (w : Width) (n : Nat) : (s.fillColumns w n).tabrdy = s.tabrdy := rfl
@[simp] theorem State.fillColumns_err (w : Width) (n : Nat) : (s.fillColumns w n).err = s.err := rfl
theorem State.fillColumns_cell_inside (w : Width) {n c r : Nat} (hc : c < n) (hn : n ≤ 8) (hr : r < 256) :
    (s.fillColumns w n).cell c r = w.view (Config.entropy (s.draws + cellNumber c r)) := by
  have hk : cellNumber c r < tableRows * min n tableCols := by
    simp only [cellNumber, tableRows, tableCols]
    omega
  simp [State.fillColumns, State.cell, Memory.read?_fill_below hk]
theorem State.fillColumns_cell_outside (w : Width) {n c : Nat} (hc : n ≤ c) (r : Nat) :
    (s.fillColumns w n).cell c r = s.cell c r := by
  have hk : tableRows * min n tableCols ≤ cellNumber c r := by
    simp only [cellNumber, tableRows, tableCols]
    omega
  simp [State.fillColumns, State.cell, Memory.read?_fill_above hk]

/-! The `W`-bit view. -/

theorem Width.view_view (w : Width) (v : Data) : w.view (w.view v) = w.view v := by
  cases w
  · exact BitVec.eq_of_toNat_eq (by simp [Width.view])
  · rfl
theorem Width.view_toNat (w : Width) (v : Data) : (w.view v).toNat = v.toNat % 2 ^ w.bits := by
  cases w
  · simp only [Width.view, Width.bits, BitVec.toNat_setWidth]
    omega
  · exact (Nat.mod_eq_of_lt v.isLt).symm
theorem Width.view_xor (w : Width) (a b : Data) : w.view (a ^^^ b) = w.view a ^^^ w.view b := by
  cases w <;> simp [Width.view, BitVec.setWidth_xor]
theorem State.memRead_view (w : Width) (c r : Nat) : w.view (s.memRead w c r) = s.memRead w c r :=
  Width.view_view w _

/-! Registers. -/

@[simp] theorem State.writeCsr_status (r : Csr) (v : Data) : (s.writeCsr r v).status = s.status := by cases r <;> rfl
@[simp] theorem State.writeCsr_ecause (r : Csr) (v : Data) : (s.writeCsr r v).ecause = s.ecause := by cases r <;> rfl
@[simp] theorem State.writeCsr_ecmd (r : Csr) (v : Data) : (s.writeCsr r v).ecmd = s.ecmd := by cases r <;> rfl
@[simp] theorem State.writeCsr_table (r : Csr) (v : Data) : (s.writeCsr r v).table = s.table := by cases r <;> rfl
@[simp] theorem State.writeCsr_resets (r : Csr) (v : Data) : (s.writeCsr r v).resets = s.resets := by cases r <;> rfl
@[simp] theorem State.writeCsr_draws (r : Csr) (v : Data) : (s.writeCsr r v).draws = s.draws := by cases r <;> rfl
@[simp] theorem State.writeCsr_inputs (r : Csr) (v : Data) : (s.writeCsr r v).inputs = s.inputs := by cases r <;> rfl
@[simp] theorem State.writeCsr_responses (r : Csr) (v : Data) : (s.writeCsr r v).responses = s.responses := by cases r <;> rfl
@[simp] theorem State.writeCsr_cell (r : Csr) (v : Data) (c k : Nat) : (s.writeCsr r v).cell c k = s.cell c k := by
  cases r <;> rfl
@[simp] theorem State.writeCsr_tabrdy (r : Csr) (v : Data) : (s.writeCsr r v).tabrdy = s.tabrdy := by cases r <;> rfl
@[simp] theorem State.writeCsr_err (r : Csr) (v : Data) : (s.writeCsr r v).err = s.err := by cases r <;> rfl
theorem State.readCsr_writeCsr_same {r : Csr} (h : csrReadOnly r = false) (v : Data) :
    (s.writeCsr r v).readCsr r = v := by
  cases r <;> first | rfl | simp [csrReadOnly] at h
theorem State.readCsr_writeCsr_other {r q : Csr} (h : q ≠ r) (v : Data) :
    (s.writeCsr r v).readCsr q = s.readCsr q := by
  cases r <;> cases q <;> first | rfl | exact absurd rfl h

/-! Reset. -/

@[simp] theorem State.afterReset_status : s.afterReset.status = 0#64 := rfl
@[simp] theorem State.afterReset_ecause : s.afterReset.ecause = 0#64 := rfl
@[simp] theorem State.afterReset_ecmd : s.afterReset.ecmd = 0#64 := rfl
@[simp] theorem State.afterReset_mulcfg : s.afterReset.mulcfg = 0x420#64 := rfl
@[simp] theorem State.afterReset_mula : s.afterReset.mula = 0#64 := rfl
@[simp] theorem State.afterReset_muln : s.afterReset.muln = 0#64 := rfl
@[simp] theorem State.afterReset_tabcfg : s.afterReset.tabcfg = 0x004#64 := rfl
@[simp] theorem State.afterReset_tabseed : s.afterReset.tabseed = 0#64 := rfl
@[simp] theorem State.afterReset_table : s.afterReset.table = [] := rfl
@[simp] theorem State.afterReset_resets : s.afterReset.resets = s.resets + 1 := rfl
@[simp] theorem State.afterReset_draws : s.afterReset.draws = s.draws := rfl
@[simp] theorem State.afterReset_inputs : s.afterReset.inputs = s.inputs := rfl
@[simp] theorem State.afterReset_responses : s.afterReset.responses = s.responses := rfl

end Sys2Proof.Machine
end

