-- ==== Sys2Proof/Laws/Exec.lean ====
section
/-! SUPPORT. What `exec` and `step` can do, said once: an instruction either takes error entry or has the effect its
rule gives it, and a step takes exactly one pending input. -/

namespace Sys2Proof.Machine

/-- The effect of an accepted instruction on the state, before its response, with the conditions it was accepted on. -/
inductive Effect (s : State) : Instr → State → Prop
  | csrr (csr : CsrAddr) (opa : Data) (r : Csr) (hr : csrAt csr = some r) : Effect s (.csrr csr opa) s
  | csrw (csr : CsrAddr) (opa : Data) (r : Csr) (hr : csrAt csr = some r) (hw : csrReadOnly r = false)
      (hl : (csrLockable r && s.tabrdy) = false) (hv : csrLegal r opa = true) :
      Effect s (.csrw csr opa) (s.writeCsr r opa)
  | clrerr (opa : Data) : Effect s (.clrerr opa) s.clearRecord
  | mulh (opa : Data) : Effect s (.mulh opa) s
  | fmix32 (opa : Data) : Effect s (.fmix32 opa) s
  | fmix64 (opa : Data) : Effect s (.fmix64 opa) s
  | tabh (opa : Data) (h : s.tabrdy = true) : Effect s (.tabh opa) s
  | tabbegin (opa : Data) : Effect s (.tabbegin opa) (s.setTabrdy false)
  | tabw (col : Col) (row : Row) (opa : Data) (h : s.tabrdy = false) (hc : col.toNat < tabcfgCols s.tabcfg) :
      Effect s (.tabw col row opa) (s.memWrite (tabcfgWidth s.tabcfg) col.toNat row.toNat opa)
  | tabrd (col : Col) (row : Row) (opa : Data) (h : s.tabrdy = true) (hc : col.toNat < tabcfgCols s.tabcfg) :
      Effect s (.tabrd col row opa) s
  | tabrand (opa : Data) (h : s.tabrdy = false) :
      Effect s (.tabrand opa) (s.fillColumns (tabcfgWidth s.tabcfg) (tabcfgCols s.tabcfg))
  | tabcommit (opa : Data) (h : s.tabrdy = false) : Effect s (.tabcommit opa) (s.setTabrdy true)

/-- Every instruction either takes error entry, with an error other than `ILLEGAL_CMD`, or has its effect and answers
`OK`. -/
theorem exec_cases (i : Instr) (s : State) :
    (∃ e, e ≠ .ok ∧ e ≠ .illegalCmd ∧ exec i s = raise e i.word s) ∨
      (∃ u d, Effect s i u ∧ exec i s = respond d u) := by
  cases i with
  | csrr csr opa =>
    simp only [exec, execCsrr]
    cases hr : csrAt csr with
    | none => exact .inl ⟨.badCsr, by decide, by decide, rfl⟩
    | some r => exact .inr ⟨s, _, .csrr csr opa r hr, rfl⟩
  | csrw csr opa =>
    simp only [exec, execCsrw]
    cases hr : csrAt csr with
    | none => exact .inl ⟨.badCsr, by decide, by decide, rfl⟩
    | some r =>
      dsimp only
      split
      · exact .inl ⟨.badCsr, by decide, by decide, rfl⟩
      · rename_i hw
        split
        · exact .inl ⟨.tabLocked, by decide, by decide, rfl⟩
        · rename_i hl
          split
          · rename_i hv
            exact .inr ⟨_, _, .csrw csr opa r hr (by simpa using hw) (Bool.eq_false_iff.mpr hl) hv, rfl⟩
          · exact .inl ⟨.badValue, by decide, by decide, rfl⟩
  | clrerr opa => exact .inr ⟨_, _, .clrerr opa, rfl⟩
  | mulh opa => exact .inr ⟨_, _, .mulh opa, rfl⟩
  | fmix32 opa => exact .inr ⟨_, _, .fmix32 opa, rfl⟩
  | fmix64 opa => exact .inr ⟨_, _, .fmix64 opa, rfl⟩
  | tabh opa =>
    simp only [exec, execTabh]
    split
    · rename_i h; exact .inr ⟨_, _, .tabh opa h, rfl⟩
    · exact .inl ⟨.tabNotReady, by decide, by decide, rfl⟩
  | tabbegin opa => exact .inr ⟨_, _, .tabbegin opa, rfl⟩
  | tabw col row opa =>
    simp only [exec, execTabw]
    split
    · exact .inl ⟨.tabLocked, by decide, by decide, rfl⟩
    · rename_i h
      split
      · exact .inl ⟨.badIndex, by decide, by decide, rfl⟩
      · rename_i hc
        exact .inr ⟨_, _, .tabw col row opa (by simpa using h) (by omega), rfl⟩
  | tabrd col row opa =>
    simp only [exec, execTabrd]
    split
    · rename_i h
      split
      · exact .inl ⟨.badIndex, by decide, by decide, rfl⟩
      · rename_i hc
        exact .inr ⟨_, _, .tabrd col row opa h (by omega), rfl⟩
    · exact .inl ⟨.tabNotReady, by decide, by decide, rfl⟩
  | tabrand opa =>
    simp only [exec, execTabrand]
    split
    · exact .inl ⟨.tabLocked, by decide, by decide, rfl⟩
    · rename_i h; exact .inr ⟨_, _, .tabrand opa (by simpa using h), rfl⟩
  | tabcommit opa =>
    simp only [exec, execTabcommit]
    split
    · exact .inl ⟨.tabLocked, by decide, by decide, rfl⟩
    · rename_i h; exact .inr ⟨_, _, .tabcommit opa (by simpa using h), rfl⟩

theorem step_wait {s : State} (h : s.inputs = []) : step s = .next s := by
  simp [step, h, wait]

theorem step_reset {s : State} {rest : List Input} (h : s.inputs = .reset :: rest) :
    step s = .next (s.setInputs rest).afterReset := by
  simp [step, h]

theorem step_illegal {s : State} {c : Command} {rest : List Input} {e : DecodeError}
    (h : s.inputs = .command c :: rest) (hd : decode c = .error e) :
    step s = raise .illegalCmd c.word (s.setInputs rest) := by
  simp [step, h, hd, illegalCommand]

end Sys2Proof.Machine
end

