-- ==== Sys2Proof/Laws/PerInstr.lean ====
section
/-! SUPPORT. Statements made per instruction. Family `OpcodeRow`: the word of an instruction matches the row of its own
mnemonic in the opcode map and no other row (30_encoding.md R84, R93). -/

namespace Sys2Proof.Laws.OpcodeRow

/-- The rows that the word of `i` matches are exactly the row of `i`'s mnemonic. -/
def Statement (i : Instr) : Prop := (matchingRows i.word).map (·.mnemonic) = [i.mnemonic]

theorem csrr (csr : CsrAddr) (opa : Data) : Statement (.csrr csr opa) := by
  simp [Statement, matchingRows, opcodeTable_eq, matchesWord_iff, Instr.word, Instr.mnemonic, opcodeOf_wordC,
    zeroC_wordC, zeroOf, List.filter]

theorem csrw (csr : CsrAddr) (opa : Data) : Statement (.csrw csr opa) := by
  simp [Statement, matchingRows, opcodeTable_eq, matchesWord_iff, Instr.word, Instr.mnemonic, opcodeOf_wordC,
    zeroC_wordC, zeroOf, List.filter]

theorem clrerr (opa : Data) : Statement (.clrerr opa) :=
  show (matchingRows (wordN 0x03#8)).map (·.mnemonic) = ["CLRERR"] by decide

theorem mulh (opa : Data) : Statement (.mulh opa) :=
  show (matchingRows (wordN 0x10#8)).map (·.mnemonic) = ["MULH"] by decide

theorem fmix32 (opa : Data) : Statement (.fmix32 opa) :=
  show (matchingRows (wordN 0x20#8)).map (·.mnemonic) = ["FMIX32"] by decide

theorem fmix64 (opa : Data) : Statement (.fmix64 opa) :=
  show (matchingRows (wordN 0x21#8)).map (·.mnemonic) = ["FMIX64"] by decide

theorem tabh (opa : Data) : Statement (.tabh opa) :=
  show (matchingRows (wordN 0x30#8)).map (·.mnemonic) = ["TABH"] by decide

theorem tabbegin (opa : Data) : Statement (.tabbegin opa) :=
  show (matchingRows (wordN 0x31#8)).map (·.mnemonic) = ["TABBEGIN"] by decide

theorem tabw (col : Col) (row : Row) (opa : Data) : Statement (.tabw col row opa) := by
  simp [Statement, matchingRows, opcodeTable_eq, matchesWord_iff, Instr.word, Instr.mnemonic, opcodeOf_wordT,
    zeroT_wordT, zeroOf, List.filter]

theorem tabrd (col : Col) (row : Row) (opa : Data) : Statement (.tabrd col row opa) := by
  simp [Statement, matchingRows, opcodeTable_eq, matchesWord_iff, Instr.word, Instr.mnemonic, opcodeOf_wordT,
    zeroT_wordT, zeroOf, List.filter]

theorem tabrand (opa : Data) : Statement (.tabrand opa) :=
  show (matchingRows (wordN 0x34#8)).map (·.mnemonic) = ["TABRAND"] by decide

theorem tabcommit (opa : Data) : Statement (.tabcommit opa) :=
  show (matchingRows (wordN 0x35#8)).map (·.mnemonic) = ["TABCOMMIT"] by decide

end Sys2Proof.Laws.OpcodeRow
end

