-- ==== Sys2Proof/Tests/Slice0.lean ====
section
/-! SUPPORT. Tests: a word of every row and an ill-formed word for every check, written out from 30_encoding.md R92 and
95_test_vectors.md section 2.7; results from the worked examples and from 95_test_vectors.md; and a witness for the
hypotheses of every obligation. -/

namespace Sys2Proof.Tests

open Sys2Proof.Machine

/-! ## Helpers -/

/-- The responses of the state an outcome leads to. -/
def answers : Host.Outcome State Fault Refusal → List Response
  | .next t => t.responses
  | .fault _ => []
  | .refused _ => []

/-- The state an outcome leads to. -/
def after : Host.Outcome State Fault Refusal → State
  | .next t => t
  | .fault _ => State.reset
  | .refused _ => State.reset

/-- The reset state with an instance of the multiplicative mixer. -/
def mulState (cfg a n : Data) : State := ((State.reset.setMulcfg cfg).setMula a).setMuln n

/-- The reset state, in the ready phase, with a table. -/
def readyState (cfg seed : Data) (m : Memory) : State :=
  (((State.reset.setStatus 1#64).setTabcfg cfg).setTabseed seed).setTable m

/-- The reset state with an error recorded: `STATUS = 0x3`, as in the worked example of R203. -/
def errorState : State := ((State.reset.setStatus 3#64).setEcause 3#64).setEcmd 0x02100000#64

/-- The small table of the worked example of R176. -/
def smallTable : Memory :=
  [(1, 0x11111111#64), (2, 0x22222222#64), (3, 0x44444444#64), (4, 0x88888888#64)]

/-- One command presented to the reset state. -/
def presented (w : CmdWord) (opa : Data) : State := State.reset.present ⟨w, opa⟩

/-! ## Well-formedness and decoding (R85, R86, R92) -/

theorem test_wellFormed_n : (⟨0x20000000#32, 0#64⟩ : Command).wellFormed = true := by decide
theorem test_wellFormed_c : (⟨0x02210000#32, 0#64⟩ : Command).wellFormed = true := by decide
theorem test_wellFormed_t : (⟨0x3207FF00#32, 0#64⟩ : Command).wellFormed = true := by decide
/-- An ill-formed command for each check: opcode, zero field of format N, of format C, both of format T. -/
theorem test_illFormed_opcode : (⟨0x36000000#32, 0#64⟩ : Command).wellFormed = false := by decide
theorem test_illFormed_zero_word : (⟨0x00000000#32, 0#64⟩ : Command).wellFormed = false := by decide
theorem test_illFormed_ones_word : (⟨0xFFFFFFFF#32, 0#64⟩ : Command).wellFormed = false := by decide
theorem test_illFormed_n : (⟨0x20000001#32, 0#64⟩ : Command).wellFormed = false := by decide
theorem test_illFormed_c : (⟨0x01010001#32, 0#64⟩ : Command).wellFormed = false := by decide
theorem test_illFormed_t_high : (⟨0x32084100#32, 0#64⟩ : Command).wellFormed = false := by decide
theorem test_illFormed_t_low : (⟨0x33000080#32, 0#64⟩ : Command).wellFormed = false := by decide

theorem test_decode_csrr : decode ⟨0x01010000#32, 5#64⟩ = .ok (.csrr 0x01#8 5#64) := by decide
theorem test_decode_csrw : decode ⟨0x02100000#32, 5#64⟩ = .ok (.csrw 0x10#8 5#64) := by decide
theorem test_decode_clrerr : decode ⟨0x03000000#32, 5#64⟩ = .ok (.clrerr 5#64) := by decide
theorem test_decode_mulh : decode ⟨0x10000000#32, 5#64⟩ = .ok (.mulh 5#64) := by decide
theorem test_decode_fmix32 : decode ⟨0x20000000#32, 5#64⟩ = .ok (.fmix32 5#64) := by decide
theorem test_decode_fmix64 : decode ⟨0x21000000#32, 5#64⟩ = .ok (.fmix64 5#64) := by decide
theorem test_decode_tabh : decode ⟨0x30000000#32, 5#64⟩ = .ok (.tabh 5#64) := by decide
theorem test_decode_tabbegin : decode ⟨0x31000000#32, 5#64⟩ = .ok (.tabbegin 5#64) := by decide
theorem test_decode_tabw : decode ⟨0x3207FF00#32, 5#64⟩ = .ok (.tabw 7#3 255#8 5#64) := by decide
theorem test_decode_tabrd : decode ⟨0x33031000#32, 5#64⟩ = .ok (.tabrd 3#3 16#8 5#64) := by decide
theorem test_decode_tabrand : decode ⟨0x34000000#32, 5#64⟩ = .ok (.tabrand 5#64) := by decide
theorem test_decode_tabcommit : decode ⟨0x35000000#32, 5#64⟩ = .ok (.tabcommit 5#64) := by decide
theorem test_decode_illegal_opcode : decode ⟨0xFF000000#32, 5#64⟩ = .error (.unassignedOpcode 0xFF#8) := by decide
theorem test_decode_illegal_reserved : decode ⟨0x32084100#32, 5#64⟩ = .error (.reservedBits 0x32#8) := by decide

/-- The fields of format T bit by bit: `0011_0010 00000 101 1000_0001 0000_0000` is `TABW 5, 129`. -/
theorem test_encode_tabw : (encode (.tabw 5#3 129#8 7#64)) = ⟨0b00110010000001011000000100000000#32, 7#64⟩ := by decide

/-- A word of 32 bits, and one of 96 with the operand in bits 95:32. -/
theorem test_decodeTableWord_short : decodeTableWord 32 0x21000000 = some (.fmix64 0#64) := by decide
theorem test_decodeTableWord_full :
    decodeTableWord 96 0x112233445566778832004100 = some (.tabw 0#3 0x41#8 0x1122334455667788#64) := by decide
theorem test_decodeTableWord_illegal : decodeTableWord 32 0x36000000 = none := by decide

/-! ## Steps -/

/-- R131, worked example, through the command port. -/
theorem test_step_fmix32 : answers (step (presented 0x20000000#32 1#64)) = [⟨.ok, 0x514E28B7#64⟩] := by decide
/-- An unassigned opcode: `ILLEGAL_CMD`, recorded (95 section 2.6, rows 1, 12, 13). -/
theorem test_step_illegal :
    (after (step (presented 0x36000000#32 0#64))).ecause = 1#64 ∧
      (after (step (presented 0x36000000#32 0#64))).ecmd = 0x36000000#64 := by decide
theorem test_step_withFetchWord :
    answers (step (State.reset.withFetchWord 32 0x01100000)) = [⟨.ok, 0x420#64⟩] := by decide

/-! ## Results, from the worked examples of the rules and from 95_test_vectors.md -/

theorem test_csrr_mulcfg : answers (exec (.csrr 0x10#8 0#64) State.reset) = [⟨.ok, 0x420#64⟩] := by decide
theorem test_csrr_unimplemented : answers (exec (.csrr 0x04#8 0#64) State.reset) = [⟨.badCsr, 0#64⟩] := by decide
theorem test_csrw_p_above_width :
    (after (exec (.csrw 0x10#8 0x421#64) State.reset)).mulcfg = 0x420#64 ∧
      answers (exec (.csrw 0x10#8 0x421#64) State.reset) = [⟨.badValue, 0#64⟩] := by decide
theorem test_csrw_p_equals_width : (after (exec (.csrw 0x10#8 0x540#64) State.reset)).mulcfg = 0x540#64 := by decide
theorem test_clrerr_keeps_tabrdy :
    (after (exec (.clrerr 0#64) errorState)).status = 1#64 ∧ (after (exec (.clrerr 0#64) errorState)).ecause = 0#64 ∧
      (after (exec (.clrerr 0#64) errorState)).ecmd = 0#64 := by decide
/-- R113, worked example: `MULCFG = 0xC20`, `MULA = 0x9E3779B9`. -/
theorem test_mulh_top :
    answers (exec (.mulh 0xDEADBEEF#64) (mulState 0xC20#64 0x9E3779B9#64 0#64)) = [⟨.ok, 0x9226F1B7#64⟩] := by decide
/-- `P = 0` gives 0 (R114). -/
theorem test_mulh_p_zero :
    answers (exec (.mulh 0xDEADBEEF#64) (mulState 0xC00#64 0x9E3779B9#64 0#64)) = [⟨.ok, 0#64⟩] := by decide
theorem test_fmix32_one : answers (exec (.fmix32 1#64) State.reset) = [⟨.ok, 0x514E28B7#64⟩] := by decide
/-- The upper half of the operand is ignored (R131). -/
theorem test_fmix32_upper : answers (exec (.fmix32 0xFFFFFFFF00000001#64) State.reset) = [⟨.ok, 0x514E28B7#64⟩] := by decide
theorem test_fmix64_one : answers (exec (.fmix64 1#64) State.reset) = [⟨.ok, 0xB456BCFC34C2CB2C#64⟩] := by decide
theorem test_fmix64_zero : answers (exec (.fmix64 0#64) State.reset) = [⟨.ok, 0#64⟩] := by decide
theorem test_tabh_small :
    answers (exec (.tabh 0x04030201#64) (readyState 0x001#64 0#64 smallTable)) = [⟨.ok, 0xFFFFFFFF#64⟩] := by decide
theorem test_tabh_seed :
    answers (exec (.tabh 0x04030201#64) (readyState 0x001#64 0xA5A5A5A5#64 smallTable)) = [⟨.ok, 0x5A5A5A5A#64⟩] := by
  decide
theorem test_tabbegin_leaves_ready :
    (after (exec (.tabbegin 0#64) (readyState 0x001#64 0#64 smallTable))).status = 0#64 ∧
      (after (exec (.tabbegin 0#64) (readyState 0x001#64 0#64 smallTable))).table = smallTable := by decide
theorem test_tabw_cuts_to_width :
    (after (exec (.tabw 0#3 0x41#8 0x1122334455667788#64) (State.reset.setTabcfg 0x001#64))).table =
      [(0x41, 0x0000000055667788#64)] := by decide
theorem test_tabw_column_outside :
    answers (exec (.tabw 4#3 0#8 1#64) State.reset) = [⟨.badIndex, 0#64⟩] := by decide
/-- A 64-bit cell read through a 32-bit view (R37). -/
theorem test_tabrd_view :
    answers (exec (.tabrd 0#3 0x41#8 0#64) (readyState 0x001#64 0#64 [(0x41, 0x1122334455667788#64)])) =
      [⟨.ok, 0x55667788#64⟩] := by decide
theorem test_tabrd_phase_before_column :
    answers (exec (.tabrd 5#3 0#8 0#64) State.reset) = [⟨.tabNotReady, 0#64⟩] := by decide
/-- `TABRAND` makes one draw a cell of the instance (R174: 1024 cells for `COLS = 4`). -/
theorem test_tabrand_draws : (after (exec (.tabrand 0#64) State.reset)).draws = 1024 := by decide
theorem test_tabrand_locked :
    answers (exec (.tabrand 0#64) (readyState 0x001#64 0#64 [])) = [⟨.tabLocked, 0#64⟩] := by decide
theorem test_tabcommit_after_reset : (after (exec (.tabcommit 0#64) State.reset)).status = 1#64 := by decide
theorem test_tabcommit_twice :
    answers (exec (.tabcommit 0#64) (readyState 0x004#64 0#64 [])) = [⟨.tabLocked, 0#64⟩] := by decide

/-- The preset values of R120 and R178 are legal. -/
theorem test_preset_values_legal :
    ([0x020#64, 0x420#64, 0x820#64, 0xC20#64, 0x140#64, 0x540#64, 0x940#64, 0xD40#64].all legalMulcfg) = true ∧
      ([0x001#64, 0x101#64, 0x004#64, 0x104#64, 0x008#64, 0x108#64].all legalTabcfg) = true := by decide

/-! ## The table memory's canonical form -/

theorem test_memory_write_keeps_order :
    Memory.write 2 7#64 smallTable =
      [(1, 0x11111111#64), (2, 7#64), (3, 0x44444444#64), (4, 0x88888888#64)] := by decide
theorem test_memory_wf : Memory.wf (Memory.write 2047 1#64 (Memory.write 0 2#64 smallTable)) = true := by decide
theorem test_memory_not_wf_order : Memory.wf [(2, 0#64), (1, 0#64)] = false := by decide
theorem test_memory_not_wf_range : Memory.wf [(2048, 0#64)] = false := by decide

/-! ## The reference functions (43_murmur3_hash_reference.md) and the assembler (R90, R91) -/

theorem test_m3_32_zero : m3Hash32 0#32 0#32 = 0x2362F9DE#32 := by decide
theorem test_m3_32_key : m3Hash32 0x12345678#32 0#32 = 0xEC3DCB62#32 := by decide
/-- "Hello, world!" with seed 0 (R151). -/
theorem test_m3_buffer :
    m3HashBuf ("Hello, world!".toList.map fun c => BitVec.ofNat 8 c.toNat) 0#64 =
      0xF1512DD1D2D665DF2C326650A8F3C564#128 := by decide

theorem test_assemble_csrw :
    assembleLine "csrw MULCFG, 0x4_20 ; comment".toList = .ok (some (.csrw 0x10#8 0x420#64)) := by decide
/-- `MULSETUP FIB, 32, TOP, 40` assembles although the block refuses it (R91). -/
theorem test_assemble_mulsetup :
    assembleLine "MULSETUP FIB, 32, TOP, 40".toList = .ok (some (.csrw 0x10#8 0x428#64)) := by decide
theorem test_assemble_tabfull : assembleLine "TABFULL 64".toList = .ok (some (.csrw 0x20#8 0x108#64)) := by decide
theorem test_assemble_field_too_wide : assembleLine "TABRD 8, 0".toList = .error .doesNotFit := by decide

/-! ## Witnesses: for each obligation with hypotheses, a state and operands that meet them together -/

theorem next_of_answers {o : Host.Outcome State Fault Refusal} (h : answers o ≠ []) : o = .next (after o) := by
  cases o with
  | next t => rfl
  | fault r => exact absurd rfl h
  | refused r => exact absurd rfl h

theorem witness_EncodeOfDecode : decode ⟨0x3207FF00#32, 9#64⟩ = .ok (.tabw 7#3 255#8 9#64) := by decide

theorem witness_EveryWordIsOneCommandOrIllegal : decode ⟨0x02100000#32, 1#64⟩ = .ok (.csrw 0x10#8 1#64) := by decide

theorem witness_ReservedBitsMakeWordIllegal_n :
    opcodeOf 0x20000001#32 ∈ [0x03#8, 0x10#8, 0x20#8, 0x21#8, 0x30#8, 0x31#8, 0x34#8, 0x35#8] ∧
      (0x20000001#32).extractLsb' 0 24 ≠ 0#24 := by decide
theorem witness_ReservedBitsMakeWordIllegal_n_top :
    opcodeOf 0x35800000#32 ∈ [0x03#8, 0x10#8, 0x20#8, 0x21#8, 0x30#8, 0x31#8, 0x34#8, 0x35#8] ∧
      (0x35800000#32).extractLsb' 0 24 ≠ 0#24 := by decide
theorem witness_ReservedBitsMakeWordIllegal_c :
    opcodeOf 0x02008000#32 ∈ [0x01#8, 0x02#8] ∧ (0x02008000#32).extractLsb' 0 16 ≠ 0#16 := by decide
theorem witness_ReservedBitsMakeWordIllegal_t_high :
    opcodeOf 0x32084100#32 ∈ [0x32#8, 0x33#8] ∧ (0x32084100#32).extractLsb' 19 5 ≠ 0#5 := by decide
theorem witness_ReservedBitsMakeWordIllegal_t_low :
    opcodeOf 0x33000080#32 ∈ [0x32#8, 0x33#8] ∧ (0x33000080#32).extractLsb' 0 8 ≠ 0#8 := by decide

theorem witness_StepRunsDecodedInstruction :
    (presented 0x20000000#32 1#64).inputs = .command ⟨0x20000000#32, 1#64⟩ :: [] ∧
      decode ⟨0x20000000#32, 1#64⟩ = .ok (.fmix32 1#64) := by decide

theorem witness_IllegalWordIsRefused :
    (presented 0x20000001#32 1#64).inputs = .command ⟨0x20000001#32, 1#64⟩ :: [] ∧
      matchingRows 0x20000001#32 = [] := by decide

theorem witness_EveryCommandHasOneResponse_command :
    (presented 0xFFFFFFFF#32 1#64).inputs = .command ⟨0xFFFFFFFF#32, 1#64⟩ :: [] ∧
      step (presented 0xFFFFFFFF#32 1#64) = .next (after (step (presented 0xFFFFFFFF#32 1#64))) :=
  ⟨rfl, next_of_answers (by decide)⟩

/-- The state of R203's worked example with a reset event pending; its hypothesis is also that of
`ResetEventRestoresRegisters` and `ResetLeavesDefaultInstances`. -/
theorem witness_EveryCommandHasOneResponse_reset :
    (errorState.setInputs [.reset]).inputs = .reset :: [] ∧
      step (errorState.setInputs [.reset]) = .next (after (step (errorState.setInputs [.reset]))) :=
  ⟨rfl, rfl⟩
theorem witness_ResetEventRestoresRegisters : (errorState.setInputs [.reset]).inputs = .reset :: [] := rfl
theorem witness_ResetLeavesDefaultInstances :
    ((readyState 0x108#64 7#64 smallTable).setInputs [.reset]).inputs = .reset :: [] := rfl

theorem witness_BlockWaitsWithoutInput : (readyState 0x001#64 0#64 smallTable).inputs = [] := rfl

/-- A state that meets the invariant with an error recorded, an instance locked and cells written. -/
theorem witness_inv : Inv ((readyState 0x108#64 7#64 smallTable).setStatus 3#64 |>.setEcause 1#64
    |>.setEcmd 0x36000000#64) where
  statusReserved := by decide
  ecauseIsCode := ⟨.illegalCmd, by decide⟩
  ecmdUpper := by decide
  recordClear := by decide
  recordSet := by decide
  mulcfgLegal := by decide
  tabcfgLegal := by decide
  tableWf := by decide

theorem inv_present {s : State} (h : Inv s) (c : Command) : Inv (s.present c) :=
  ⟨h.statusReserved, h.ecauseIsCode, h.ecmdUpper, h.recordClear, h.recordSet, h.mulcfgLegal, h.tabcfgLegal, h.tableWf⟩

theorem reset_inv : Inv State.reset where
  statusReserved := by decide
  ecauseIsCode := ⟨.ok, by decide⟩
  ecmdUpper := by decide
  recordClear := by decide
  recordSet := by decide
  mulcfgLegal := by decide
  tabcfgLegal := by decide
  tableWf := by decide

/-- A step that is refused and recorded, from a state with the invariant. -/
theorem witness_StepKeepsInvariant :
    Inv (presented 0x02100000#32 0x421#64) ∧
      step (presented 0x02100000#32 0x421#64) = .next (after (step (presented 0x02100000#32 0x421#64))) :=
  ⟨inv_present reset_inv _, next_of_answers (by decide)⟩

/-- A recorded `ILLEGAL_CMD` with the word `0x36000000`, then a refused write. -/
theorem witness_StepKeepsRecordFittingWord :
    RecordFitsWord (((errorState.setEcause 1#64).setEcmd 0x36000000#64).present ⟨0x02100000#32, 0x421#64⟩) ∧
      errorState.err = true ∧
      step (((errorState.setEcause 1#64).setEcmd 0x36000000#64).present ⟨0x02100000#32, 0x421#64⟩) =
        .next (after (step (((errorState.setEcause 1#64).setEcmd 0x36000000#64).present ⟨0x02100000#32, 0x421#64⟩))) :=
  ⟨fun _ => by decide, by decide, next_of_answers (by decide)⟩

theorem witness_CsrwWritesNamedRegister :
    legalMulcfg 0x420#64 = true ∧ legalMulcfg 0xFC0#64 = false ∧ legalMulcfg 0xF40#64 = true ∧
      State.reset.tabrdy = false ∧ legalTabcfg 0x108#64 = true := by decide

theorem witness_ClrerrClearsRecord :
    State.reset.err = false ∧ State.reset.ecause = 0#64 ∧ State.reset.ecmd = 0#64 := by decide

theorem witness_ErrorEntryRecordsFirstError : State.reset.err = false ∧ errorState.err = true := by decide

/-- A refused command with no error recorded, and one with an error recorded. -/
theorem witness_RefusedCommandChangesOnlyRecord :
    (presented 0x02100000#32 0x421#64).inputs = .command ⟨0x02100000#32, 0x421#64⟩ :: [] ∧
      step (presented 0x02100000#32 0x421#64) = .next (after (step (presented 0x02100000#32 0x421#64))) ∧
      (after (step (presented 0x02100000#32 0x421#64))).responses =
        (presented 0x02100000#32 0x421#64).responses ++ [⟨.badValue, 0#64⟩] ∧
      Status.badValue ≠ .ok ∧ (presented 0x02100000#32 0x421#64).err = false :=
  ⟨rfl, next_of_answers (by decide), by decide, by decide, by decide⟩
theorem witness_RefusedCommandChangesOnlyRecord_again :
    step (errorState.present ⟨0x01040000#32, 0#64⟩) = .next (after (step (errorState.present ⟨0x01040000#32, 0#64⟩))) ∧
      (after (step (errorState.present ⟨0x01040000#32, 0#64⟩))).responses = errorState.responses ++ [⟨.badCsr, 0#64⟩] ∧
      Status.badCsr ≠ .ok ∧ (errorState.present ⟨0x01040000#32, 0#64⟩).err = true :=
  ⟨next_of_answers (by decide), by decide, by decide, by decide⟩

theorem witness_RecordStaysAndBlocksNothing_stays :
    step (errorState.present ⟨0x36000000#32, 0#64⟩) = .next (after (step (errorState.present ⟨0x36000000#32, 0#64⟩))) ∧
      (errorState.present ⟨0x36000000#32, 0#64⟩).err = true ∧
      (∀ rest, (errorState.present ⟨0x36000000#32, 0#64⟩).inputs ≠ .reset :: rest) ∧
      (∀ c rest opa, (errorState.present ⟨0x36000000#32, 0#64⟩).inputs = .command c :: rest →
        decode c ≠ .ok (.clrerr opa)) := by
  refine ⟨next_of_answers (by decide), by decide, fun rest h => ?_, fun c rest opa h hd => ?_⟩
  · cases h
  · cases h
    exact absurd ((show decode ⟨0x36000000#32, 0#64⟩ = .error (.unassignedOpcode 0x36#8) by decide).symm.trans hd)
      (fun h => nomatch h)
theorem witness_RecordStaysAndBlocksNothing_blocks :
    (∀ csr ∈ [0x01#8, 0x02#8, 0x03#8], ∀ o, Instr.tabcommit 0#64 ≠ .csrr csr o) ∧
      exec (.tabcommit 0#64) State.reset = .next (after (exec (.tabcommit 0#64) State.reset)) ∧
      exec (.tabcommit 0#64) (State.reset.recordError .badCsr 0x01040000#32) =
        .next (after (exec (.tabcommit 0#64) (State.reset.recordError .badCsr 0x01040000#32))) :=
  ⟨(by intro csr _ o h; cases h), next_of_answers (by decide), next_of_answers (by decide)⟩

/-- Each refusal a decoded command can meet, one instruction for each. -/
theorem witness_StatusTellsItsCause :
    answers (exec (.csrr 0x22#8 0#64) State.reset) = [⟨.badCsr, 0#64⟩] ∧
      answers (exec (.csrw 0x03#8 0#64) State.reset) = [⟨.badCsr, 0#64⟩] ∧
      answers (exec (.csrw 0x20#8 0#64) State.reset) = [⟨.badValue, 0#64⟩] ∧
      answers (exec (.tabh 0#64) State.reset) = [⟨.tabNotReady, 0#64⟩] ∧
      answers (exec (.csrw 0x20#8 0#64) (readyState 4#64 0#64 [])) = [⟨.tabLocked, 0#64⟩] ∧
      answers (exec (.tabrd 4#3 0#8 0#64) (readyState 4#64 0#64 [])) = [⟨.badIndex, 0#64⟩] ∧
      answers (exec (.clrerr 0#64) State.reset) = [⟨.ok, 0#64⟩] := by decide

/-- Both phases, for every obligation that asks for one. -/
theorem witness_ChecksFollowPriority :
    (readyState 4#64 0#64 []).tabrdy = true ∧ State.reset.tabrdy = false := by decide

theorem witness_TabcfgAcceptedExactlyWhenLegal : State.reset.tabrdy = false := by decide

theorem witness_CsrwThenCsrrReadsBack :
    exec (.csrw 0x10#8 0xD40#64) State.reset = .next (after (exec (.csrw 0x10#8 0xD40#64) State.reset)) ∧
      (after (exec (.csrw 0x10#8 0xD40#64) State.reset)).responses = State.reset.responses ++ [⟨.ok, 0#64⟩] :=
  ⟨next_of_answers (by decide), by decide⟩

theorem witness_ReadsHaveNoSideEffects :
    isRead (.tabrd 0#3 1#8 0#64) = true ∧
      exec (.tabrd 0#3 1#8 0#64) (readyState 1#64 0#64 smallTable) =
        .next (after (exec (.tabrd 0#3 1#8 0#64) (readyState 1#64 0#64 smallTable))) ∧
      (after (exec (.tabrd 0#3 1#8 0#64) (readyState 1#64 0#64 smallTable))).responses =
        State.reset.responses ++ [⟨.ok, 0x11111111#64⟩] :=
  ⟨rfl, next_of_answers (by decide), by decide⟩

theorem witness_ReadsHaveNoSideEffects_refused :
    isRead (.tabh 0#64) = true ∧ exec (.tabh 0#64) State.reset = .next (after (exec (.tabh 0#64) State.reset)) ∧
      (after (exec (.tabh 0#64) State.reset)).responses = State.reset.responses ++ [⟨.tabNotReady, 0#64⟩] :=
  ⟨rfl, next_of_answers (by decide), by decide⟩

theorem witness_RegistersWrittenOnlyByTheirCommands :
    exec (.csrw 0x21#8 9#64) State.reset = .next (after (exec (.csrw 0x21#8 9#64) State.reset)) :=
  next_of_answers (by decide)

/-- A command that writes no cell, `TABW` and `TABRAND`, with cells outside those written. -/
theorem witness_CellsWrittenOnlyByTabwAndTabrand :
    writesCells (.tabcommit 0#64) = false ∧
      exec (.tabcommit 0#64) State.reset = .next (after (exec (.tabcommit 0#64) State.reset)) ∧
      exec (.tabw 3#3 255#8 1#64) State.reset = .next (after (exec (.tabw 3#3 255#8 1#64) State.reset)) ∧
      ((3 : Nat) ≠ (3#3).toNat ∨ (254 : Nat) ≠ (255#8).toNat) ∧
      exec (.tabrand 0#64) State.reset = .next (after (exec (.tabrand 0#64) State.reset)) ∧
      tabcfgCols State.reset.tabcfg ≤ 4 :=
  ⟨rfl, next_of_answers (by decide), next_of_answers (by decide), by decide, next_of_answers (by decide), by decide⟩

theorem witness_OperandBitsIgnored :
    (0x100000005#64).toNat % 2 ^ 32 = (5#64).toNat % 2 ^ 32 ∧ State.reset.mulcfg.getLsbD 8 = false ∧
      State.reset.tabcfg.getLsbD 8 = false := by decide

theorem witness_HashCommandsCommute :
    isHash (.fmix32 1#64) = true ∧ isHash (.fmix64 1#64) = true ∧
      exec (.fmix32 1#64) State.reset = .next (State.reset.addResponse ⟨.ok, 0x514E28B7#64⟩) ∧
      answers (exec (.fmix64 1#64) (State.reset.addResponse ⟨.ok, 0x514E28B7#64⟩)) =
        [⟨.ok, 0x514E28B7#64⟩] ++ [⟨.ok, 0xB456BCFC34C2CB2C#64⟩] :=
  ⟨rfl, rfl, congrArg (fun d => Host.Outcome.next (State.reset.addResponse ⟨.ok, d⟩))
    (show (fmix32 ((1#64).setWidth 32)).setWidth 64 = 0x514E28B7#64 by decide), by decide⟩

theorem witness_MulhComputesHash : legalMulcfg (mulState 0xF40#64 3#64 10#64).mulcfg = true := by decide

/-- `p = W`, `p = 1` and `p = 0`, in mode 0. -/
theorem witness_MulhTopBits :
    (legalMulcfg 0xD40#64 = true ∧ mulcfgMode 0xD40#64 = false ∧ mulcfgP 0xD40#64 = (mulcfgWidth 0xD40#64).bits) ∧
      (legalMulcfg 0xD01#64 = true ∧ mulcfgMode 0xD01#64 = false ∧ 1 ≤ mulcfgP 0xD01#64) ∧
      (legalMulcfg 0xD00#64 = true ∧ mulcfgMode 0xD00#64 = false ∧ mulcfgP 0xD00#64 = 0) := by decide

/-- `P = W = 32` against `P = 16` and `P = 0`, with the custom multiplier. -/
theorem witness_NarrowedHashIsTopBits :
    mulcfgMode 0xC20#64 = false ∧ mulcfgMode 0xC10#64 = false ∧ mulcfgMode 0xC00#64 = false ∧
      mulcfgWidth 0xC10#64 = mulcfgWidth 0xC20#64 ∧ mulcfgCsel 0xC10#64 = mulcfgCsel 0xC20#64 ∧
      mulcfgP 0xC20#64 = (mulcfgWidth 0xC20#64).bits ∧ 1 ≤ mulcfgP 0xC10#64 ∧ mulcfgP 0xC00#64 = 0 ∧
      answers (exec (.mulh 0xDEADBEEF#64) (mulState 0xC20#64 0x9E3779B9#64 0#64)) = [⟨.ok, 0x9226F1B7#64⟩] ∧
      answers (exec (.mulh 0xDEADBEEF#64) (mulState 0xC10#64 0x9E3779B9#64 0#64)) = [⟨.ok, 0x9226#64⟩] := by decide

theorem witness_RangeScaledHashBelowBound :
    mulcfgMode 0xE20#64 = true ∧ 1 ≤ (mulState 0xE20#64 3#64 1#64).muln.toNat % 2 ^ 32 ∧
      (mulState 0xE20#64 3#64 0#64).muln.toNat % 2 ^ 32 = 0 ∧ mulcfgWidth 0xE00#64 = mulcfgWidth 0xE20#64 ∧
      mulcfgCsel 0xE00#64 = mulcfgCsel 0xE20#64 ∧ mulcfgMode 0xE00#64 = true := by decide

/-- A legal instance for each corner: `A = 0`, `W = 32`, `A = 2` and an odd `A` at `p = W` in mode 0. -/
theorem witness_MulhCornerCases :
    legalMulcfg 0xC20#64 = true ∧ mulcfgWidth 0xC20#64 = .w32 ∧ mulcfgMode 0xC20#64 = false ∧
      mulcfgP 0xC20#64 = (mulcfgWidth 0xC20#64).bits ∧ mulSelect 0xC20#64 0#64 = 0#64 ∧
      mulSelect 0xC20#64 2#64 = 2#64 ∧ (mulSelect 0xC20#64 0x9E3779B9#64).getLsbD 0 = true := by decide

/-- The state a `FMIX32` command is presented to; the run is its one step. -/
theorem witness_MulhRepeatsUntilReconfigured :
    (∀ x ∈ (presented 0x20000000#32 1#64).inputs.take 1, ¬ replacesMulInstance x) ∧
      runSteps 1 (presented 0x20000000#32 1#64) = .next (after (runSteps 1 (presented 0x20000000#32 1#64))) ∧
      ∃ d, exec (.mulh 5#64) (presented 0x20000000#32 1#64) =
        .next ((presented 0x20000000#32 1#64).addResponse ⟨.ok, d⟩) := by
  refine ⟨fun x hx => ?_, next_of_answers (by decide), _, rfl⟩
  obtain rfl : x = .command ⟨0x20000000#32, 1#64⟩ := by
    simpa [presented, State.present] using hx
  rintro ⟨csr, v, hd, -⟩
  exact absurd ((show decode ⟨0x20000000#32, 1#64⟩ = .ok (.fmix32 1#64) by decide).symm.trans hd) (fun h => nomatch h)

theorem witness_FinalizerIsPermutation : 1 ≤ 1 ∧ 1 < 2 ∧ 1 ≤ 33 ∧ 33 < 64 := by decide

/-- Both phases, a legal `TABCFG`, the last column inside; a command of another unit. -/
theorem witness_PhaseDecidesTableCommands :
    State.reset.tabrdy = false ∧ (readyState 4#64 0#64 []).tabrdy = true ∧ legalTabcfg 0x104#64 = true ∧
      (3#3).toNat < tabcfgCols State.reset.tabcfg ∧ (3#3).toNat < tabcfgCols (readyState 4#64 0#64 []).tabcfg := by
  decide
theorem witness_PhaseDecidesTableCommands_unaffected :
    exec (.clrerr 0#64) errorState = .next (after (exec (.clrerr 0#64) errorState)) ∧
      exec (.clrerr 0#64) (errorState.setTabrdy false) = .next (after (exec (.clrerr 0#64) (errorState.setTabrdy false))) :=
  ⟨rfl, rfl⟩

theorem witness_TabbeginEndsInstance : State.reset.tabrdy = false := by decide

/-- Ready; building with the first column outside; building with the last column inside. -/
theorem witness_TabwStoresCell :
    (readyState 4#64 0#64 []).tabrdy = true ∧ State.reset.tabrdy = false ∧
      (State.reset.tabcfg.extractLsb' 0 4).toNat ≤ (4#3).toNat ∧
      (3#3).toNat < (State.reset.tabcfg.extractLsb' 0 4).toNat := by decide

theorem witness_TabrandFillsColumns :
    (readyState 4#64 0#64 []).tabrdy = true ∧ State.reset.tabrdy = false ∧ legalTabcfg State.reset.tabcfg = true := by
  decide

theorem witness_TabcommitLocksInstance :
    (readyState 4#64 0#64 []).tabrdy = true ∧ State.reset.tabrdy = false := by decide

theorem witness_TabhXorsCells :
    State.reset.tabrdy = false ∧ (readyState 1#64 0#64 smallTable).tabrdy = true := by decide

theorem witness_TabrdReadsCell :
    State.reset.tabrdy = false ∧ (readyState 8#64 0#64 []).tabrdy = true ∧
      ((readyState 4#64 0#64 []).tabcfg.extractLsb' 0 4).toNat ≤ (4#3).toNat ∧
      (7#3).toNat < ((readyState 8#64 0#64 []).tabcfg.extractLsb' 0 4).toNat := by decide

/-- The four cells of column 0 that key `0x04030201` names, as `TABRD` answers them. -/
theorem witness_TabhIsXorOfTabrdResponses :
    (readyState 1#64 0#64 smallTable).tabrdy = true ∧ legalTabcfg (readyState 1#64 0#64 smallTable).tabcfg = true ∧
      ∃ d : Nat → Data, ∀ i, i < 4 →
        exec (.tabrd (BitVec.ofNat 3 (i % 1)) (byteOf 0x04030201#64 i) 0#64) (readyState 1#64 0#64 smallTable) =
          .next ((readyState 1#64 0#64 smallTable).addResponse ⟨.ok, d i⟩) := by
  refine ⟨by decide, by decide, fun i => (readyState 1#64 0#64 smallTable).memRead .w32
    (BitVec.ofNat 3 (i % 1)).toNat (byteOf 0x04030201#64 i).toNat, fun i _ => ?_⟩
  have h1 : (readyState 1#64 0#64 smallTable).tabrdy = true := by decide
  have h2 : ¬ tabcfgCols (readyState 1#64 0#64 smallTable).tabcfg ≤ (BitVec.ofNat 3 (i % 1)).toNat := by
    rw [Nat.mod_one]; decide
  have h3 : tabcfgWidth (readyState 1#64 0#64 smallTable).tabcfg = .w32 := by decide
  simp only [exec, execTabrd, h1, h2, h3, if_true, if_false, respond]

theorem witness_TableShapeIsColsByRows : (readyState 1#64 0#64 smallTable).tabrdy = true := by decide

/-- Two instances whose tables differ in column 1 only, which `COLS = 1` does not use. -/
theorem witness_TabhUsesOnlyColumnsInUse :
    (readyState 1#64 0#64 smallTable).tabrdy = true ∧
      (readyState 1#64 0#64 (Memory.write 256 5#64 smallTable)).tabrdy = true ∧
      legalTabcfg (readyState 1#64 0#64 smallTable).tabcfg = true ∧
      (∀ c r : Nat, c < min 1 4 → r < 256 →
        (readyState 1#64 0#64 (Memory.write 256 5#64 smallTable)).cell c r =
          (readyState 1#64 0#64 smallTable).cell c r) ∧
      ∃ d, exec (.tabh 0x04030201#64) (readyState 1#64 0#64 smallTable) =
        .next ((readyState 1#64 0#64 smallTable).addResponse ⟨.ok, d⟩) := by
  refine ⟨by decide, by decide, by decide, fun c r hc hr => ?_, tabHash (readyState 1#64 0#64 smallTable) 0x04030201#64, ?_⟩
  · have hk : cellNumber c r ≠ 256 := by
      simp only [cellNumber, tableRows]
      omega
    exact congrArg (fun o => Option.getD o _) (Memory.read?_write_other hk 5#64 smallTable)
  · have h1 : (readyState 1#64 0#64 smallTable).tabrdy = true := by decide
    simp only [exec, execTabh, h1, if_true, respond]

/-- A ready instance of one column, a key whose bytes 0, 1 and 2, 3 are equal, and a table of zero cells. -/
theorem witness_TabhXorStructure :
    (readyState 1#64 0xA5A5A5A5#64 smallTable).tabrdy = true ∧
      legalTabcfg (readyState 1#64 0xA5A5A5A5#64 smallTable).tabcfg = true ∧
      answers (exec (.tabh 0x01010404#64) (readyState 1#64 0xA5A5A5A5#64 smallTable)) = [⟨.ok, 0xA5A5A5A5#64⟩] ∧
      byteOf 0x01010404#64 0 = byteOf 0x01010404#64 1 ∧ byteOf 0x01010404#64 2 = byteOf 0x01010404#64 3 ∧
      byteOf 0x01010202#64 0 = byteOf 0x01010202#64 1 ∧ tabcfgCols 1#64 = 1 ∧ tabcfgWidth 1#64 = .w32 := by decide
theorem witness_TabhXorStructure_even (b : BitVec 8) :
    Even ((List.range Width.w32.bytes).countP (fun i => byteOf 0x01010404#64 i == b)) := by
  revert b
  decide
theorem witness_TabhXorStructure_zero_cells (c r : Nat) (hc : c < 8) (hr : r < 256) :
    (readyState 1#64 0#64 (Memory.fill 2048 (fun _ => 0#64) [])).cell c r = 0#64 := by
  have hk : cellNumber c r < 2048 := by
    simp only [cellNumber, tableRows]
    omega
  simp only [readyState, State.cell, State.setTable_table, Memory.read?_fill_below hk, Option.getD_some]

theorem witness_ReadyInstanceIsImmutable :
    ((readyState 1#64 0#64 smallTable).present ⟨0x34000000#32, 0#64⟩).tabrdy = true ∧
      (∀ x ∈ ((readyState 1#64 0#64 smallTable).present ⟨0x34000000#32, 0#64⟩).inputs.take 1, ¬ endsInstance x) ∧
      runSteps 1 ((readyState 1#64 0#64 smallTable).present ⟨0x34000000#32, 0#64⟩) =
        .next (after (runSteps 1 ((readyState 1#64 0#64 smallTable).present ⟨0x34000000#32, 0#64⟩))) ∧
      answers (exec (.tabh 0x04030201#64) ((readyState 1#64 0#64 smallTable).present ⟨0x34000000#32, 0#64⟩)) =
        [⟨.ok, 0xFFFFFFFF#64⟩] := by
  refine ⟨by decide, fun x hx => ?_, next_of_answers (by decide), by decide⟩
  obtain rfl : x = .command ⟨0x34000000#32, 0#64⟩ := by
    simpa [readyState, State.present, State.reset] using hx
  rintro ⟨opa, hd⟩
  exact absurd ((show decode ⟨0x34000000#32, 0#64⟩ = .ok (.tabrand 0#64) by decide).symm.trans hd) (fun h => nomatch h)

theorem witness_TabrdSeesCommittedTabw :
    State.reset.tabrdy = false ∧ (3#3).toNat < tabcfgCols State.reset.tabcfg := by decide

theorem witness_SetupPseudoInstructionsFillFields : 3 < 4 ∧ 1 < 2 ∧ 64 ≤ 64 ∧ 15 < 16 := by decide

end Sys2Proof.Tests
end

section
/-! What `exec` and `step` answer, as the proofs of the obligations use it: the step on a command that decodes, the
next state of an instruction by `exec_cases`, and the register an address names. -/

namespace Sys2Proof.Machine

theorem step_command {s : State} {c : Command} {rest : List Input} {i : Instr}
    (h : s.inputs = .command c :: rest) (hd : decode c = .ok i) : step s = exec i (s.setInputs rest) := by
  simp [step, h, hd]

/-- The next state of an instruction: after error entry (R224), or its effect with the response `OK`. -/
theorem exec_next_cases {i : Instr} {s t : State} (h : exec i s = .next t) :
    (∃ e, e ≠ .ok ∧ e ≠ .illegalCmd ∧ t = (s.recordError e i.word).addResponse ⟨e, 0#64⟩) ∨
      (∃ u d, Effect s i u ∧ t = u.addResponse ⟨.ok, d⟩) := by
  obtain ⟨e, hok, hill, he⟩ | ⟨u, d, heff, he⟩ := exec_cases i s
  · rw [he, raise_eq] at h
    exact .inl ⟨e, hok, hill, (Host.Outcome.next.inj h).symm⟩
  · rw [he, respond_eq] at h
    exact .inr ⟨u, d, heff, (Host.Outcome.next.inj h).symm⟩

/-- The address of a register (R24). -/
def csrAddr : Csr → CsrAddr
  | .id => 0x00#8
  | .status => 0x01#8
  | .ecause => 0x02#8
  | .ecmd => 0x03#8
  | .mulcfg => 0x10#8
  | .mula => 0x11#8
  | .muln => 0x12#8
  | .tabcfg => 0x20#8
  | .tabseed => 0x21#8

theorem csrAt_eq_some_iff {a : CsrAddr} {r : Csr} : csrAt a = some r ↔ a = csrAddr r := by
  constructor
  · intro h
    unfold csrAt at h
    split_ifs at h <;> cases h <;> assumption
  · rintro rfl
    cases r <;> rfl

theorem SameConfig.refl (s : State) : SameConfig s s := ⟨rfl, rfl, rfl, rfl, rfl⟩

theorem SameEnvironment.refl (s : State) : SameEnvironment s s := ⟨rfl, rfl, rfl⟩

/-- The writable registers are the five configuration registers. -/
theorem SameConfig.readCsr {s t : State} (h : SameConfig s t) {q : Csr} (hq : csrReadOnly q = false) :
    t.readCsr q = s.readCsr q := by
  obtain ⟨hmulcfg, hmula, hmuln, htabcfg, htabseed⟩ := h
  cases q with
  | id | status | ecause | ecmd => cases hq
  | mulcfg => exact hmulcfg
  | mula => exact hmula
  | muln => exact hmuln
  | tabcfg => exact htabcfg
  | tabseed => exact htabseed

end Sys2Proof.Machine
end

section
/-! The register frame of all twelve instructions (00_scope.md R2; 10_state.md R26, R38, R39; 45_system.md R201). -/

namespace Sys2Proof.Machine

/-- What `i` may change in the registers and in the model's own counts, on the way from `s` to `t`: a writable register
only as the `CSRW` that names it, `TABRDY` only as `TABBEGIN` or `TABCOMMIT`, the count of draws only as `TABRAND`. -/
structure RegisterFrame (i : Instr) (s t : State) : Prop where
  config : ∀ q, csrReadOnly q = false → t.readCsr q = s.readCsr q ∨ i = .csrw (csrAddr q) (t.readCsr q)
  tabrdy : t.tabrdy = s.tabrdy ∨ (∃ o, i = .tabbegin o ∧ t.tabrdy = false) ∨
    (∃ o, i = .tabcommit o ∧ t.tabrdy = true)
  reserved : t.status.extractLsb' 2 62 = s.status.extractLsb' 2 62
  draws : t.draws = s.draws ∨ ∃ o, i = .tabrand o
  inputs : t.inputs = s.inputs
  resets : t.resets = s.resets

/-- Nothing the frame speaks of changed, so it holds for every instruction. -/
theorem RegisterFrame.of_unchanged (i : Instr) {s t : State} (hconfig : SameConfig s t) (hrdy : t.tabrdy = s.tabrdy)
    (hres : t.status.extractLsb' 2 62 = s.status.extractLsb' 2 62) (henv : SameEnvironment s t) :
    RegisterFrame i s t := by
  obtain ⟨hinputs, hresets, hdraws⟩ := henv
  exact ⟨fun _ hq => .inl (hconfig.readCsr hq), .inl hrdy, hres, .inl hdraws, hinputs, hresets⟩

theorem RegisterFrame.refl (i : Instr) (s : State) : RegisterFrame i s s :=
  .of_unchanged i (.refl s) rfl rfl (.refl s)

theorem RegisterFrame.recordError (i : Instr) (s : State) (e : Status) (w : CmdWord) :
    RegisterFrame i s (s.recordError e w) :=
  .of_unchanged i (by simp [SameConfig]) (by simp) (s.recordError_reserved e w) (by simp [SameEnvironment])

/-- A response is outside the frame. -/
theorem RegisterFrame.addResponse {i : Instr} {s t : State} (h : RegisterFrame i s t) (r : Response) :
    RegisterFrame i s (t.addResponse r) :=
  ⟨fun q hq => by cases q <;> exact h.config _ hq, h.tabrdy, h.reserved, h.draws, h.inputs, h.resets⟩

/-- `CSRW` leaves its operand in the register it names and keeps every other one (R201). -/
theorem RegisterFrame.writeCsr (s : State) {r : Csr} (hw : csrReadOnly r = false) (v : Data) :
    RegisterFrame (.csrw (csrAddr r) v) s (s.writeCsr r v) where
  config q _ := by
    by_cases hqr : q = r
    · subst hqr
      right
      rw [s.readCsr_writeCsr_same hw v]
    · exact .inl (s.readCsr_writeCsr_other hqr v)
  tabrdy := .inl (s.writeCsr_tabrdy r v)
  reserved := by rw [s.writeCsr_status r v]
  draws := .inl (s.writeCsr_draws r v)
  inputs := s.writeCsr_inputs r v
  resets := s.writeCsr_resets r v

/-- `TABBEGIN` and `TABCOMMIT` change `TABRDY` and nothing else of the frame (R172, R175). -/
theorem RegisterFrame.setTabrdy {i : Instr} (s : State) (b : Bool)
    (hi : (∃ o, i = .tabbegin o ∧ b = false) ∨ (∃ o, i = .tabcommit o ∧ b = true)) :
    RegisterFrame i s (s.setTabrdy b) where
  config _ hq := .inl ((show SameConfig s (s.setTabrdy b) from .refl s).readCsr hq)
  tabrdy := .inr (by simpa using hi)
  reserved := assignBit_reserved s.status 0 b (by decide)
  draws := .inl rfl
  inputs := rfl
  resets := rfl

/-- `TABRAND` changes the count of draws and nothing else of the frame (R174). -/
theorem RegisterFrame.fillColumns (s : State) (opa : Data) (w : Width) (n : Nat) :
    RegisterFrame (.tabrand opa) s (s.fillColumns w n) where
  config _ hq := .inl ((show SameConfig s (s.fillColumns w n) from .refl s).readCsr hq)
  tabrdy := .inl rfl
  reserved := rfl
  draws := .inr ⟨opa, rfl⟩
  inputs := rfl
  resets := rfl

/-- The effect of every accepted instruction stays within the frame. -/
theorem Effect.registerFrame {i : Instr} {s u : State} (h : Effect s i u) : RegisterFrame i s u := by
  cases h with
  | csrr | mulh | fmix32 | fmix64 | tabh | tabrd => exact .refl _ s
  | csrw csr opa r hr hw hl hv =>
    rw [csrAt_eq_some_iff.mp hr]
    exact .writeCsr s hw opa
  | clrerr => exact .of_unchanged _ (.refl s) s.clearRecord_tabrdy s.clearRecord_reserved (.refl s)
  | tabbegin opa => exact .setTabrdy s false (.inl ⟨opa, rfl, rfl⟩)
  | tabw => exact .of_unchanged _ (.refl s) rfl rfl (.refl s)
  | tabrand opa => exact .fillColumns s opa _ _
  | tabcommit opa => exact .setTabrdy s true (.inr ⟨opa, rfl, rfl⟩)

theorem exec_registerFrame {i : Instr} {s t : State} (h : exec i s = .next t) : RegisterFrame i s t := by
  obtain ⟨e, -, -, rfl⟩ | ⟨u, d, heff, rfl⟩ := exec_next_cases h
  · exact (RegisterFrame.recordError i s e i.word).addResponse _
  · exact heff.registerFrame.addResponse _

/-- Settles O30, by the frame of each effect and of error entry. -/
theorem registersWrittenOnlyByTheirCommands : Obligations.RegistersWrittenOnlyByTheirCommands := by
  intro i s t h
  have frame := exec_registerFrame h
  exact ⟨frame.config .mulcfg rfl, frame.config .mula rfl, frame.config .muln rfl, frame.config .tabcfg rfl,
    frame.config .tabseed rfl, frame.tabrdy, frame.reserved, frame.draws, frame.inputs, frame.resets⟩

end Sys2Proof.Machine
end

section
/-! The step on a command of the host (00_scope.md R17, R18). -/

namespace Sys2Proof.Machine

/-- Settles O6: it is the command case of `step`. -/
theorem stepRunsDecodedInstruction : Obligations.StepRunsDecodedInstruction :=
  fun _ _ _ _ => step_command

end Sys2Proof.Machine
end

section
/-! One register and the queue of inputs at a time: what `CSRR` and `CSRW` answer for an implemented register, and what
one step and a run of steps do to the pending inputs. -/

namespace Sys2Proof.Machine

theorem exec_csrr (r : Csr) (opa : Data) (s : State) :
    exec (.csrr (csrAddr r) opa) s = respond (s.readCsr r) s := by
  cases r <;> rfl

/-- `CSRW` of a writable register: the phase is checked before the value (R201, R223). -/
theorem exec_csrw {r : Csr} (hw : csrReadOnly r = false) (v : Data) (s : State) :
    exec (.csrw (csrAddr r) v) s =
      if csrLockable r && s.tabrdy then raise .tabLocked (wordC 0x02#8 (csrAddr r)) s
      else if csrLegal r v then respond 0#64 (s.writeCsr r v)
      else raise .badValue (wordC 0x02#8 (csrAddr r)) s := by
  have haddr : csrAt (csrAddr r) = some r := csrAt_eq_some_iff.mpr rfl
  simp [exec, execCsrw, haddr, hw, Instr.word]

theorem exec_csrw_locked {r : Csr} (hw : csrReadOnly r = false) (hl : csrLockable r = true) {s : State}
    (hrdy : s.tabrdy = true) (v : Data) :
    exec (.csrw (csrAddr r) v) s = raise .tabLocked (wordC 0x02#8 (csrAddr r)) s := by
  rw [exec_csrw hw, if_pos (by simp [hl, hrdy])]

/-- `CSRW` of a writable register that is not locked is accepted exactly for a legal value (R201, R219). -/
theorem exec_csrw_unlocked {r : Csr} (hw : csrReadOnly r = false) {s : State}
    (hl : (csrLockable r && s.tabrdy) = false) (v : Data) :
    ∃ t, exec (.csrw (csrAddr r) v) s = .next t ∧
      if csrLegal r v then t.readCsr r = v ∧ Answered s t .ok 0#64
      else t.readCsr r = s.readCsr r ∧ Answered s t .badValue 0#64 := by
  rw [exec_csrw hw, if_neg (by simp [hl])]
  split
  next hlegal =>
    have hresp : SameConfig (s.writeCsr r v) ((s.writeCsr r v).addResponse ⟨.ok, 0#64⟩) := .refl _
    exact ⟨_, rfl, (hresp.readCsr hw).trans (s.readCsr_writeCsr_same hw v), by simp [Answered]⟩
  next hlegal =>
    exact ⟨_, rfl, SameConfig.readCsr (by simp [SameConfig]) hw, by simp [Answered]⟩

/-- What a step did, by the oldest pending input: it waited, reset, took error entry for a word that is no command, or
executed the decoded instruction. -/
theorem step_next_cases {s t : State} (h : step s = .next t) :
    (s.inputs = [] ∧ t = s) ∨
      (∃ rest, s.inputs = .reset :: rest ∧ t = (s.setInputs rest).afterReset) ∨
      (∃ c rest e, s.inputs = .command c :: rest ∧ decode c = .error e ∧
        t = ((s.setInputs rest).recordError .illegalCmd c.word).addResponse ⟨.illegalCmd, 0#64⟩) ∨
      (∃ c rest i, s.inputs = .command c :: rest ∧ decode c = .ok i ∧ exec i (s.setInputs rest) = .next t) := by
  cases hin : s.inputs with
  | nil =>
    rw [step_wait hin] at h
    exact .inl ⟨rfl, (Host.Outcome.next.inj h).symm⟩
  | cons x rest =>
    cases x with
    | reset =>
      rw [step_reset hin] at h
      exact .inr (.inl ⟨rest, rfl, (Host.Outcome.next.inj h).symm⟩)
    | command c =>
      cases hd : decode c with
      | error e =>
        rw [step_illegal hin hd, raise_eq] at h
        exact .inr (.inr (.inl ⟨c, rest, e, rfl, hd, (Host.Outcome.next.inj h).symm⟩))
      | ok i =>
        rw [step_command hin hd] at h
        exact .inr (.inr (.inr ⟨c, rest, i, rfl, hd, h⟩))

/-- A step takes the oldest pending input, if there is one. -/
theorem step_inputs {s t : State} (h : step s = .next t) : t.inputs = s.inputs.tail := by
  obtain ⟨hin, rfl⟩ | ⟨rest, hin, rfl⟩ | ⟨c, rest, e, hin, -, rfl⟩ | ⟨c, rest, i, hin, -, hexec⟩ :=
    step_next_cases h
  · simp [hin]
  · simp [hin]
  · simp [hin]
  · simpa [hin] using (exec_registerFrame hexec).inputs

theorem runSteps_succ {n : Nat} {s t : State} (h : runSteps (n + 1) s = .next t) :
    ∃ u, step s = .next u ∧ runSteps n u = .next t := by
  unfold runSteps at h
  cases hstep : step s with
  | next u => exact ⟨u, rfl, by simpa [hstep] using h⟩
  | fault r => simp [hstep] at h
  | refused r => simp [hstep] at h

/-- What every step keeps whose input is not one of `bad` holds after a run that takes no such input. -/
theorem runSteps_keeps {P : State → Prop} {bad : Input → Prop}
    (hkeep : ∀ s t, P s → (∀ x rest, s.inputs = x :: rest → ¬ bad x) → step s = .next t → P t)
    {n : Nat} {s t : State} (hs : P s) (hgood : ∀ x ∈ s.inputs.take n, ¬ bad x) (hrun : runSteps n s = .next t) :
    P t := by
  induction n generalizing s with
  | zero =>
    cases hrun
    exact hs
  | succ n ih =>
    obtain ⟨u, hstep, hrest⟩ := runSteps_succ hrun
    refine ih (hkeep s u hs (fun x rest hin => hgood x (by simp [hin])) hstep) (fun x hx => ?_) hrest
    rw [step_inputs hstep] at hx
    cases hin : s.inputs with
    | nil => simp [hin] at hx
    | cons y rest =>
      rw [hin] at hx hgood
      exact hgood x (List.mem_cons_of_mem y hx)

end Sys2Proof.Machine
end

section
/-! The invariant of the registers and the table (10_state.md R26 to R30, R33, R34): it holds at reset, and every
operation of a step keeps it. -/

namespace Sys2Proof.Machine

theorem State.reset_inv : Inv State.reset where
  statusReserved := by decide
  ecauseIsCode := ⟨.ok, rfl⟩
  ecmdUpper := by decide
  recordClear _ := ⟨rfl, rfl⟩
  recordSet := by decide
  mulcfgLegal := by decide
  tabcfgLegal := by decide
  tableWf := Memory.wf_reset

/-- `Inv` speaks of no field but these six. -/
theorem Inv.congr {s t : State} (h : Inv s) (hstatus : t.status = s.status) (hecause : t.ecause = s.ecause)
    (hecmd : t.ecmd = s.ecmd) (hmulcfg : t.mulcfg = s.mulcfg) (htabcfg : t.tabcfg = s.tabcfg)
    (htable : t.table = s.table) : Inv t where
  statusReserved := hstatus ▸ h.statusReserved
  ecauseIsCode := hecause ▸ h.ecauseIsCode
  ecmdUpper := hecmd ▸ h.ecmdUpper
  recordClear := by
    rw [State.err, hstatus, hecause, hecmd]
    exact h.recordClear
  recordSet := by
    rw [State.err, hstatus, hecause]
    exact h.recordSet
  mulcfgLegal := hmulcfg ▸ h.mulcfgLegal
  tabcfgLegal := htabcfg ▸ h.tabcfgLegal
  tableWf := htable ▸ h.tableWf

theorem Inv.setInputs {s : State} (h : Inv s) (l : List Input) : Inv (s.setInputs l) :=
  h.congr rfl rfl rfl rfl rfl rfl

theorem Inv.addResponse {s : State} (h : Inv s) (r : Response) : Inv (s.addResponse r) :=
  h.congr rfl rfl rfl rfl rfl rfl

theorem Inv.afterReset (s : State) : Inv s.afterReset :=
  State.reset_inv.congr rfl rfl rfl rfl rfl rfl

theorem Inv.setTable {s : State} (h : Inv s) {m : Memory} (hm : Memory.wf m = true) : Inv (s.setTable m) :=
  { h with tableWf := hm }

theorem Inv.memWrite {s : State} (h : Inv s) (w : Width) {c r : Nat} (hc : c < 8) (hr : r < 256) (v : Data) :
    Inv (s.memWrite w c r v) :=
  h.setTable (Memory.wf_write (cellNumber_lt hc hr) _ h.tableWf)

theorem Inv.fillColumns {s : State} (h : Inv s) (w : Width) (n : Nat) : Inv (s.fillColumns w n) := by
  have hfit : tableRows * min n tableCols ≤ tableCols * tableRows := by
    simp only [tableRows, tableCols]
    omega
  exact (h.setTable (Memory.wf_fill hfit _ h.tableWf)).congr rfl rfl rfl rfl rfl rfl

/-- A write that passed the value check keeps `MULCFG` and `TABCFG` legal (R30, R34). -/
theorem Inv.writeCsr {s : State} (h : Inv s) {r : Csr} {v : Data} (hv : csrLegal r v = true) :
    Inv (s.writeCsr r v) := by
  cases r with
  | mulcfg => exact { h with mulcfgLegal := hv }
  | tabcfg => exact { h with tabcfgLegal := hv }
  | id | status | ecause | ecmd | mula | muln | tabseed => exact h.congr rfl rfl rfl rfl rfl rfl

theorem Inv.setTabrdy {s : State} (h : Inv s) (b : Bool) : Inv (s.setTabrdy b) :=
  { h with
    statusReserved := (assignBit_reserved s.status 0 b (by decide)).trans h.statusReserved
    recordClear := by simpa using h.recordClear
    recordSet := by simpa using h.recordSet }

theorem Inv.clearRecord {s : State} (h : Inv s) : Inv s.clearRecord :=
  { h with
    statusReserved := s.clearRecord_reserved.trans h.statusReserved
    ecauseIsCode := ⟨.ok, rfl⟩
    ecmdUpper := by simp
    recordClear := by simp
    recordSet := by simp }

/-- The code of a refusal is not that of `OK` (R216). -/
theorem statusCode_ne_zero {e : Status} (he : e ≠ .ok) : (statusCode e).setWidth 64 ≠ 0#64 := by
  cases e with
  | ok => exact absurd rfl he
  | illegalCmd | badCsr | badValue | tabNotReady | tabLocked | badIndex => decide

/-- Error entry leaves a consistent record: the first error's code and word, or those recorded before (R224). -/
theorem Inv.recordError {s : State} (h : Inv s) {e : Status} (he : e ≠ .ok) (w : CmdWord) :
    Inv (s.recordError e w) := by
  have hrecorded := s.recordError_err e w
  have hreserved := s.recordError_reserved e w
  cases herr : s.err with
  | true =>
    rw [s.recordError_of_err herr]
    exact h
  | false =>
    rw [s.recordError_of_clear herr] at hrecorded hreserved ⊢
    exact { h with
      statusReserved := hreserved.trans h.statusReserved
      ecauseIsCode := ⟨e, rfl⟩
      ecmdUpper := BitVec.eq_of_toNat_eq (by simp; omega)
      recordClear := fun hclear => by simp at hclear
      recordSet := fun _ => statusCode_ne_zero he }

/-- The effect of every accepted instruction keeps the invariant. -/
theorem Effect.inv {i : Instr} {s u : State} (heff : Effect s i u) (h : Inv s) : Inv u := by
  cases heff with
  | csrr | mulh | fmix32 | fmix64 | tabh | tabrd => exact h
  | csrw csr opa r hr hw hl hv => exact h.writeCsr hv
  | clrerr => exact h.clearRecord
  | tabbegin => exact h.setTabrdy false
  | tabw col row => exact h.memWrite _ col.isLt row.isLt _
  | tabrand => exact h.fillColumns _ _
  | tabcommit => exact h.setTabrdy true

theorem exec_inv {i : Instr} {s t : State} (h : Inv s) (hexec : exec i s = .next t) : Inv t := by
  obtain ⟨e, he, -, rfl⟩ | ⟨u, d, heff, rfl⟩ := exec_next_cases hexec
  · exact (h.recordError he i.word).addResponse _
  · exact (heff.inv h).addResponse _

/-- Settles O14: each of the four things a step can do keeps the invariant. -/
theorem stepKeepsInvariant : Obligations.StepKeepsInvariant := by
  intro s t h hstep
  obtain ⟨-, rfl⟩ | ⟨rest, -, rfl⟩ | ⟨c, rest, e, -, -, rfl⟩ | ⟨c, rest, i, -, -, hexec⟩ := step_next_cases hstep
  · exact h
  · exact .afterReset _
  · exact ((h.setInputs rest).recordError (by decide) c.word).addResponse _
  · exact exec_inv (h.setInputs rest) hexec

/-- Settles O13: the invariant holds at reset, where no error is recorded. -/
theorem resetMeetsInvariant : Obligations.ResetMeetsInvariant :=
  ⟨State.reset_inv, fun herr => absurd herr (by decide)⟩

end Sys2Proof.Machine
end

section
/-! The reset values (10_state.md R42), and the legal values of `MULCFG` and `TABCFG` (R30, R34) in arithmetic on the
value. -/

namespace Sys2Proof.Machine

/-- Settles O12: each of the nine addresses names its register, and `State.reset` holds the stated value there. -/
theorem resetStateHasStatedValues : Obligations.ResetStateHasStatedValues := by
  intro o
  change List.map _ ([.id, .status, .ecause, .ecmd, .mulcfg, .mula, .muln, .tabcfg, .tabseed].map csrAddr) = _
  simp only [List.map_cons, List.map_nil, exec_csrr, respond_eq]
  rfl

theorem getLsbD_eq_decide_toNat (v : Data) (i : Nat) : v.getLsbD i = decide (v.toNat / 2 ^ i % 2 = 1) := by
  rw [← BitVec.testBit_toNat, Nat.testBit_eq_decide_div_mod_eq]

theorem extractLsb'_eq_zero_iff (v : Data) (off len : Nat) :
    v.extractLsb' off len = 0#len ↔ v.toNat / 2 ^ off % 2 ^ len = 0 := by
  rw [← BitVec.toNat_inj, BitVec.extractLsb'_toNat, Nat.shiftRight_eq_div_pow, BitVec.toNat_zero]

theorem extractLsb'_zero_toNat (v : Data) (len : Nat) : (v.extractLsb' 0 len).toNat = v.toNat % 2 ^ len := by
  rw [BitVec.extractLsb'_toNat, Nat.shiftRight_zero]

theorem Width.ofW64_bits (b : Bool) : (Width.ofW64 b).bits = if b then 64 else 32 := by
  cases b <;> rfl

/-- `legal_MULCFG` (R30): nothing above bit 11, bit 7 clear, `P <= W`. -/
theorem legalMulcfg_iff (v : Data) :
    legalMulcfg v = true ↔ v.toNat < 2 ^ 12 ∧ v.toNat / 2 ^ 7 % 2 = 0 ∧
      v.toNat % 2 ^ 7 ≤ (if v.toNat / 2 ^ 8 % 2 = 1 then 64 else 32) := by
  have hv := v.isLt
  simp only [legalMulcfg, mulcfgP, mulcfgWidth, Width.ofW64_bits, Bool.and_eq_true, beq_iff_eq,
    Bool.not_eq_true', decide_eq_true_eq, decide_eq_false_iff_not, getLsbD_eq_decide_toNat, extractLsb'_eq_zero_iff,
    extractLsb'_zero_toNat, and_assoc]
  omega

/-- `legal_TABCFG` (R34): `COLS` one of 1, 4, 8, with or without `W64`, and nothing else. -/
theorem legalTabcfg_iff (v : Data) :
    legalTabcfg v = true ↔ v.toNat ∈ [0x001, 0x004, 0x008, 0x101, 0x104, 0x108] := by
  have hv := v.isLt
  simp only [legalTabcfg, tabcfgCols, Bool.and_eq_true, Bool.or_eq_true, beq_iff_eq, extractLsb'_eq_zero_iff,
    extractLsb'_zero_toNat, List.mem_cons, List.not_mem_nil, or_false]
  omega

/-- Settles O26: `MULCFG` is never locked, so its legality alone decides. -/
theorem mulcfgAcceptedExactlyWhenLegal : Obligations.MulcfgAcceptedExactlyWhenLegal := by
  intro v s
  obtain ⟨t, hexec, hcases⟩ := exec_csrw_unlocked (r := .mulcfg) rfl (s := s) rfl v
  simp only [csrLegal, legalMulcfg_iff] at hcases
  exact ⟨t, hexec, hcases⟩

/-- Settles O27: in the building phase `TABCFG` is not locked, so the value's legality alone decides. -/
theorem tabcfgAcceptedExactlyWhenLegal : Obligations.TabcfgAcceptedExactlyWhenLegal := by
  intro v s hrdy
  obtain ⟨t, hexec, hcases⟩ := exec_csrw_unlocked (r := .tabcfg) rfl (s := s) (by simp [hrdy]) v
  simp only [csrLegal, legalTabcfg_iff] at hcases
  exact ⟨t, hexec, hcases⟩

end Sys2Proof.Machine
end

section
/-! The frame of the table (10_state.md R36, R37): which cells an instruction may write. -/

namespace Sys2Proof.Machine

theorem Effect.sameCells {i : Instr} {s u : State} (heff : Effect s i u) (hi : writesCells i = false) :
    SameCells s u := by
  intro c r
  cases heff with
  | csrr | mulh | fmix32 | fmix64 | tabh | tabrd | clrerr | tabbegin | tabcommit => rfl
  | csrw csr opa q hq hw hl hv => exact s.writeCsr_cell q opa c r
  | tabw | tabrand => cases hi

/-- A cell that the effect of an instruction keeps is kept: error entry and the response touch none. -/
theorem exec_cell_eq {i : Instr} {s t : State} (h : exec i s = .next t) {c r : Nat}
    (heffect : ∀ u, Effect s i u → u.cell c r = s.cell c r) : t.cell c r = s.cell c r := by
  obtain ⟨e, -, -, rfl⟩ | ⟨u, d, heff, rfl⟩ := exec_next_cases h
  · simp
  · simpa using heffect u heff

/-- Settles O31: by the cells of each instruction's effect. -/
theorem cellsWrittenOnlyByTabwAndTabrand : Obligations.CellsWrittenOnlyByTabwAndTabrand := by
  intro i s t h
  refine ⟨fun hi c r => exec_cell_eq h fun u heff => heff.sameCells hi c r, ?_, ?_⟩
  · rintro col row opa rfl c r hr hother
    refine exec_cell_eq h fun u heff => ?_
    cases heff with
    | tabw =>
      refine s.memWrite_cell_other _ (fun hsame => ?_) opa
      obtain ⟨hc, hrow⟩ := cellNumber_inj hr row.isLt hsame
      exact hother.elim (· hc) (· hrow)
  · rintro opa rfl c r hc
    refine exec_cell_eq h fun u heff => ?_
    cases heff with
    | tabrand => exact s.fillColumns_cell_outside _ hc r

end Sys2Proof.Machine
end

section
/-! The hash commands (10_state.md R20): their answer is a function of the registers and the table. -/

namespace Sys2Proof.Machine

/-- `t` has what fixes the tabulation hash in `s`: `TABCFG`, `TABSEED` and every cell (R39). -/
structure SameInstance (s t : State) : Prop where
  tabcfg : t.tabcfg = s.tabcfg
  tabseed : t.tabseed = s.tabseed
  cells : SameCells s t

theorem SameInstance.refl (s : State) : SameInstance s s := ⟨rfl, rfl, fun _ _ => rfl⟩

theorem SameInstance.trans {s t u : State} (h : SameInstance s t) (h' : SameInstance t u) : SameInstance s u :=
  ⟨h'.tabcfg.trans h.tabcfg, h'.tabseed.trans h.tabseed, fun c r => (h'.cells c r).trans (h.cells c r)⟩

theorem tabAccumulate_congr {s t : State} (h : SameCells s t) (w : Width) (cols : Nat) (key start : Data) (n : Nat) :
    tabAccumulate t w cols key start n = tabAccumulate s w cols key start n := by
  induction n with
  | zero => rfl
  | succ n ih => simp only [tabAccumulate, State.memRead, h _ _, ih]

/-- The hash of a key reads `TABCFG`, `TABSEED` and cells, and nothing else (R176). -/
theorem tabHash_congr {s t : State} (h : SameInstance s t) (key : Data) : tabHash t key = tabHash s key := by
  simp only [tabHash, h.tabcfg, h.tabseed, tabAccumulate_congr h.cells]

/-- The data with which a hash command is answered `OK`: `TABH` has none in the building phase. -/
def hashAnswer (s : State) : Instr → Option Data
  | .mulh opa => some (mulHash s.mulcfg s.mula s.muln opa)
  | .fmix32 opa => some ((fmix32 (opa.setWidth 32)).setWidth 64)
  | .fmix64 opa => some (fmix64 opa)
  | .tabh opa => if s.tabrdy then some (tabHash s opa) else none
  | .csrr _ _ | .csrw _ _ | .clrerr _ | .tabbegin _ | .tabw _ _ _ | .tabrd _ _ _ | .tabrand _ | .tabcommit _ => none

theorem exec_hash {i : Instr} (hi : isHash i = true) (s : State) :
    exec i s = (hashAnswer s i).elim (raise .tabNotReady i.word s) (respond · s) := by
  cases i with
  | mulh | fmix32 | fmix64 => rfl
  | tabh opa =>
    simp only [exec, execTabh, hashAnswer]
    split <;> rfl
  | csrr | csrw | clrerr | tabbegin | tabw | tabrd | tabrand | tabcommit => cases hi

/-- A hash command answered `OK` changes nothing but the list of responses. -/
theorem exec_hash_ok_iff {i : Instr} (hi : isHash i = true) {s t : State} {d : Data} :
    exec i s = .next t ∧ Answered s t .ok d ↔ hashAnswer s i = some d ∧ t = s.addResponse ⟨.ok, d⟩ := by
  rw [exec_hash hi]
  cases hashAnswer s i with
  | none =>
    have hrefused : ¬ Answered s ((s.recordError .tabNotReady i.word).addResponse ⟨.tabNotReady, 0#64⟩) .ok d := by
      simp [Answered]
    simp only [Option.elim_none, raise_eq, Host.Outcome.next.injEq, reduceCtorEq, false_and, iff_false]
    rintro ⟨rfl, hans⟩
    exact hrefused hans
  | some d' =>
    simp only [Option.elim_some, respond_eq, Host.Outcome.next.injEq, Option.some.injEq]
    constructor
    · rintro ⟨rfl, hans⟩
      obtain rfl : d' = d := by simpa [Answered] using hans
      exact ⟨rfl, rfl⟩
    · rintro ⟨rfl, rfl⟩
      exact ⟨rfl, rfl⟩

/-- The responses given so far are no input of a hash command. -/
theorem hashAnswer_addResponse (s : State) (r : Response) (i : Instr) :
    hashAnswer (s.addResponse r) i = hashAnswer s i := by
  cases i with
  | tabh opa =>
    have hinst : SameInstance s (s.addResponse r) := ⟨rfl, rfl, fun _ _ => rfl⟩
    simp only [hashAnswer, State.addResponse_tabrdy, tabHash_congr hinst]
  | mulh | fmix32 | fmix64 | csrr | csrw | clrerr | tabbegin | tabw | tabrd | tabrand | tabcommit => rfl

/-- Settles O33: neither command changes what the other answers. -/
theorem hashCommandsCommute : Obligations.HashCommandsCommute := by
  intro i j s t u d e hi hj hexeci hansi hexecj hansj
  obtain ⟨hd, rfl⟩ := (exec_hash_ok_iff hi).mp ⟨hexeci, hansi⟩
  obtain ⟨he, rfl⟩ := (exec_hash_ok_iff hj).mp ⟨hexecj, hansj⟩
  have he' : hashAnswer s j = some e := (hashAnswer_addResponse s ⟨.ok, d⟩ j).symm.trans he
  have hd' : hashAnswer (s.addResponse ⟨.ok, e⟩) i = some d := (hashAnswer_addResponse s ⟨.ok, e⟩ i).trans hd
  obtain ⟨hexecj', hansj'⟩ := (exec_hash_ok_iff hj).mpr ⟨he', rfl⟩
  obtain ⟨hexeci', hansi'⟩ := (exec_hash_ok_iff hi).mpr ⟨hd', rfl⟩
  exact ⟨_, _, hexecj', hansj', hexeci', hansi', rfl⟩

end Sys2Proof.Machine
end

section
/-! The ready phase (10_state.md R39): no command changes `TABCFG`, `TABSEED` or a cell. -/

namespace Sys2Proof.Machine

/-- The effects that would change `TABCFG`, `TABSEED` or a cell are not accepted in the ready phase (R171). -/
theorem Effect.sameInstance {i : Instr} {s u : State} (heff : Effect s i u) (hrdy : s.tabrdy = true) :
    SameInstance s u := by
  cases heff with
  | csrr | mulh | fmix32 | fmix64 | tabh | tabrd | clrerr | tabbegin | tabcommit => exact ⟨rfl, rfl, fun _ _ => rfl⟩
  | csrw csr opa r hr hw hl hv =>
    cases r with
    | tabcfg | tabseed => simp [csrLockable, hrdy] at hl
    | id | status | ecause | ecmd | mulcfg | mula | muln => exact ⟨rfl, rfl, fun _ _ => rfl⟩
  | tabw col row opa h hc => simp [hrdy] at h
  | tabrand opa h => simp [hrdy] at h

theorem SameInstance.setInputs (s : State) (l : List Input) : SameInstance s (s.setInputs l) :=
  ⟨rfl, rfl, fun _ _ => rfl⟩

theorem SameInstance.recordError (s : State) (e : Status) (w : CmdWord) : SameInstance s (s.recordError e w) :=
  ⟨s.recordError_tabcfg e w, s.recordError_tabseed e w, s.recordError_cell e w⟩

theorem SameInstance.addResponse {s t : State} (h : SameInstance s t) (r : Response) :
    SameInstance s (t.addResponse r) :=
  ⟨h.tabcfg, h.tabseed, h.cells⟩

theorem exec_sameInstance {i : Instr} {s t : State} (hrdy : s.tabrdy = true) (h : exec i s = .next t) :
    SameInstance s t := by
  obtain ⟨e, -, -, rfl⟩ | ⟨u, d, heff, rfl⟩ := exec_next_cases h
  · exact (SameInstance.recordError s e i.word).addResponse _
  · exact (heff.sameInstance hrdy).addResponse _

/-- Only `TABBEGIN` leaves the ready phase (R172). -/
theorem exec_leaves_ready {i : Instr} {s t : State} (hrdy : s.tabrdy = true) (h : exec i s = .next t)
    (hleft : t.tabrdy = false) : ∃ o, i = .tabbegin o := by
  obtain hkept | ⟨o, hi, -⟩ | ⟨o, -, hset⟩ := (exec_registerFrame h).tabrdy
  · simp [hkept, hrdy] at hleft
  · exact ⟨o, hi⟩
  · simp [hset] at hleft

/-- A step that takes neither `TABBEGIN` nor reset keeps the ready phase, `TABCFG`, `TABSEED` and the cells. -/
theorem step_keeps_instance {s t : State} (hrdy : s.tabrdy = true)
    (hgood : ∀ x rest, s.inputs = x :: rest → ¬ endsInstance x) (h : step s = .next t) :
    t.tabrdy = true ∧ SameInstance s t := by
  obtain ⟨-, rfl⟩ | ⟨rest, hin, rfl⟩ | ⟨c, rest, e, -, -, rfl⟩ | ⟨c, rest, i, hin, hd, hexec⟩ := step_next_cases h
  · exact ⟨hrdy, .refl _⟩
  · exact absurd trivial (hgood _ _ hin)
  · exact ⟨by simpa using hrdy, ((SameInstance.setInputs s rest).trans (.recordError _ _ _)).addResponse _⟩
  · refine ⟨?_, (SameInstance.setInputs s rest).trans (exec_sameInstance hrdy hexec)⟩
    by_contra hleft
    obtain ⟨o, rfl⟩ := exec_leaves_ready (s := s.setInputs rest) hrdy hexec (by simpa using hleft)
    exact hgood _ _ hin ⟨o, hd⟩

theorem runSteps_keeps_instance {n : Nat} {s t : State} (hrdy : s.tabrdy = true)
    (hgood : ∀ x ∈ s.inputs.take n, ¬ endsInstance x) (hrun : runSteps n s = .next t) :
    t.tabrdy = true ∧ SameInstance s t :=
  runSteps_keeps (P := fun u => u.tabrdy = true ∧ SameInstance s u) (bad := endsInstance)
    (fun _ _ ⟨hready, hinst⟩ hin hstep => (step_keeps_instance hready hin hstep).imp_right hinst.trans)
    ⟨hrdy, .refl s⟩ hgood hrun

/-- Settles O54: by the effects, the phase checks, and the run that keeps what `TABH` reads. -/
theorem readyInstanceIsImmutable : Obligations.ReadyInstanceIsImmutable := by
  refine ⟨fun i s t hrdy h => ?_, fun s col row o hrdy => ?_, fun n s t key d hrdy hgood hrun hans => ?_⟩
  · obtain ⟨htabcfg, htabseed, hcells⟩ := exec_sameInstance hrdy h
    exact ⟨htabcfg, htabseed, hcells, exec_leaves_ready hrdy h⟩
  · exact ⟨exec_csrw_locked (r := .tabcfg) rfl rfl hrdy o, exec_csrw_locked (r := .tabseed) rfl rfl hrdy o,
      if_pos hrdy, if_pos hrdy⟩
  · obtain ⟨htrdy, hinst⟩ := runSteps_keeps_instance hrdy hgood hrun
    obtain ⟨hd, -⟩ := (exec_hash_ok_iff (i := .tabh key) rfl).mp ⟨hans, rfl⟩
    have hsame : hashAnswer t (.tabh key) = hashAnswer s (.tabh key) := by
      simp only [hashAnswer, htrdy, hrdy, tabHash_congr hinst]
    exact ((exec_hash_ok_iff rfl).mpr ⟨hsame.trans hd, rfl⟩).1

end Sys2Proof.Machine
end

section
/-! Reads and what they see (20_memory.md R67, R68): an accepted read changes nothing and answers the same again, and it
answers what the accepted write before it stored. -/

namespace Sys2Proof.Machine

/-- The registers hold no response (R24). -/
@[simp] theorem State.readCsr_addResponse (s : State) (r : Response) (q : Csr) :
    (s.addResponse r).readCsr q = s.readCsr q := by cases q <;> rfl

/-- The one response on the way to `u.addResponse r` is `r`, when `u` has the responses of `s`. -/
theorem answered_addResponse_iff {s u : State} (h : u.responses = s.responses) {r : Response} {st : Status} {d : Data} :
    Answered s (u.addResponse r) st d ↔ r = ⟨st, d⟩ := by
  simp [Answered, h]

theorem exec_tabw_accepted {s : State} (hrdy : s.tabrdy = false) {col : Col} (hcol : col.toNat < tabcfgCols s.tabcfg)
    (row : Row) (v : Data) :
    exec (.tabw col row v) s = respond 0#64 (s.memWrite (tabcfgWidth s.tabcfg) col.toNat row.toNat v) := by
  simp [exec, execTabw, hrdy, hcol]

theorem exec_tabcommit_accepted {s : State} (hrdy : s.tabrdy = false) (opa : Data) :
    exec (.tabcommit opa) s = respond 0#64 (s.setTabrdy true) := by
  simp [exec, execTabcommit, hrdy]

theorem exec_tabrd_accepted {s : State} (hrdy : s.tabrdy = true) {col : Col} (hcol : col.toNat < tabcfgCols s.tabcfg)
    (row : Row) (opa : Data) :
    exec (.tabrd col row opa) s = respond (s.memRead (tabcfgWidth s.tabcfg) col.toNat row.toNat) s := by
  simp [exec, execTabrd, hrdy, hcol]

theorem exec_tabh_accepted {s : State} (hrdy : s.tabrdy = true) (opa : Data) :
    exec (.tabh opa) s = respond (tabHash s opa) s :=
  if_pos hrdy

/-- A cell written through the `W`-bit view reads as the value's view (R37). -/
theorem State.memRead_memWrite_same (s : State) (w : Width) (c r : Nat) (v : Data) :
    (s.memWrite w c r v).memRead w c r = w.view v := by
  rw [State.memRead, State.memWrite_cell_same, Width.view_view]

/-- An accepted read answers from what a further response leaves as it is. -/
theorem Effect.read_answers {i : Instr} {s u : State} (heff : Effect s i u) (hread : isRead i = true) :
    ∃ d, exec i s = respond d s ∧ ∀ r, exec i (s.addResponse r) = respond d (s.addResponse r) := by
  cases heff with
  | csrr csr opa q hq =>
    obtain rfl := csrAt_eq_some_iff.mp hq
    exact ⟨s.readCsr q, exec_csrr q opa s, fun r => by rw [exec_csrr, State.readCsr_addResponse]⟩
  | mulh | fmix32 | fmix64 => exact ⟨_, rfl, fun _ => rfl⟩
  | tabh opa hrdy =>
    refine ⟨_, exec_tabh_accepted hrdy opa, fun r => ?_⟩
    rw [exec_tabh_accepted (by simpa), tabHash_congr ((SameInstance.refl s).addResponse r)]
  | tabrd col row opa hrdy hcol =>
    exact ⟨_, exec_tabrd_accepted hrdy hcol row opa, fun r => exec_tabrd_accepted (by simpa) (by simpa) row opa⟩
  | csrw | clrerr | tabbegin | tabw | tabrand | tabcommit => cases hread

/-- Settles O28: only the accepted `CSRW` answers `OK`, and it leaves its operand in the register. -/
theorem csrwThenCsrrReadsBack : Obligations.CsrwThenCsrrReadsBack := by
  intro csr v o d s t hexec hans
  obtain ⟨e, hok, -, rfl⟩ | ⟨u, d', heff, rfl⟩ := exec_next_cases hexec
  · have herr := (answered_addResponse_iff (s.recordError_responses _ _)).mp hans
    exact absurd (congrArg Response.st herr) hok
  · cases heff with
    | csrw _ _ q hq hw =>
      rw [csrAt_eq_some_iff.mp hq, exec_csrr, State.readCsr_addResponse, s.readCsr_writeCsr_same hw, respond_eq]

/-- Settles O29: error entry gives a status other than `OK`, and an accepted read the same data twice. -/
theorem readsHaveNoSideEffects : Obligations.ReadsHaveNoSideEffects := by
  intro i s t st d hread hexec hans
  obtain ⟨e, hok, -, rfl⟩ | ⟨u, -, heff, -⟩ := exec_next_cases hexec
  · cases (answered_addResponse_iff (s.recordError_responses _ _)).mp hans
    exact ⟨fun hst => absurd hst hok, fun _ => rfl⟩
  · obtain ⟨d', hanswer, hagain⟩ := heff.read_answers hread
    rw [hanswer, respond_eq] at hexec
    cases hexec
    cases (answered_addResponse_iff rfl).mp hans
    exact ⟨fun _ => ⟨rfl, hagain _⟩, fun hst => absurd rfl hst⟩

/-- Settles O55: `TABCOMMIT` keeps the cell that `TABW` wrote, and `TABRD` reads it through the same view. -/
theorem tabrdSeesCommittedTabw : Obligations.TabrdSeesCommittedTabw := by
  intro s col row v o o' hrdy hcol
  refine ⟨_, _, exec_tabw_accepted hrdy hcol row v, exec_tabcommit_accepted (by simpa) o, ?_⟩
  rw [exec_tabrd_accepted (by simp) (by simpa), respond_eq]
  simp [State.memRead_memWrite_same]

end Sys2Proof.Machine
end

section
/-! The decoder and the encoder as inverses, and the opcode map as the decoder sees it (30_encoding.md R82 to R87, R92,
R93): a command decodes exactly when its word matches a row, and then it is the encoding of one instruction. -/

namespace Sys2Proof

/-- The family `OpcodeRow`, for every instruction. -/
theorem opcodeRow (i : Instr) : (matchingRows i.word).map (·.mnemonic) = [i.mnemonic] := by
  cases i with
  | csrr csr opa => exact Laws.OpcodeRow.csrr csr opa
  | csrw csr opa => exact Laws.OpcodeRow.csrw csr opa
  | clrerr opa => exact Laws.OpcodeRow.clrerr opa
  | mulh opa => exact Laws.OpcodeRow.mulh opa
  | fmix32 opa => exact Laws.OpcodeRow.fmix32 opa
  | fmix64 opa => exact Laws.OpcodeRow.fmix64 opa
  | tabh opa => exact Laws.OpcodeRow.tabh opa
  | tabbegin opa => exact Laws.OpcodeRow.tabbegin opa
  | tabw col row opa => exact Laws.OpcodeRow.tabw col row opa
  | tabrd col row opa => exact Laws.OpcodeRow.tabrd col row opa
  | tabrand opa => exact Laws.OpcodeRow.tabrand opa
  | tabcommit opa => exact Laws.OpcodeRow.tabcommit opa

theorem matchingRows_word_ne_nil (i : Instr) : matchingRows i.word ≠ [] := by
  intro h
  simpa [h] using opcodeRow i

theorem wellFormed_iff (c : Command) : c.wellFormed = true ↔ matchingRows c.word ≠ [] := by
  simp [Command.wellFormed, matchingRows, List.filter_eq_nil_iff]

/-- The fields of an encoded word are read back, each by its law (R82, R83). -/
theorem decode_encode (i : Instr) : decode (encode i) = .ok i := by
  apply decode_of_decoded
  cases i with
  | csrr csr opa =>
    have hdec := Decoded.csrr (c := encode (.csrr csr opa)) (opcodeOf_wordC _ csr) (zeroC_wordC _ csr)
    simpa only [encode, Instr.word, Instr.operand, csrOf_wordC] using hdec
  | csrw csr opa =>
    have hdec := Decoded.csrw (c := encode (.csrw csr opa)) (opcodeOf_wordC _ csr) (zeroC_wordC _ csr)
    simpa only [encode, Instr.word, Instr.operand, csrOf_wordC] using hdec
  | clrerr opa => exact .clrerr (opcodeOf_wordN _) (zeroN_wordN _)
  | mulh opa => exact .mulh (opcodeOf_wordN _) (zeroN_wordN _)
  | fmix32 opa => exact .fmix32 (opcodeOf_wordN _) (zeroN_wordN _)
  | fmix64 opa => exact .fmix64 (opcodeOf_wordN _) (zeroN_wordN _)
  | tabh opa => exact .tabh (opcodeOf_wordN _) (zeroN_wordN _)
  | tabbegin opa => exact .tabbegin (opcodeOf_wordN _) (zeroN_wordN _)
  | tabw col row opa =>
    have hdec := Decoded.tabw (c := encode (.tabw col row opa)) (opcodeOf_wordT _ col row) (zeroT_wordT _ col row)
    simpa only [encode, Instr.word, Instr.operand, colOf_wordT, rowOf_wordT] using hdec
  | tabrd col row opa =>
    have hdec := Decoded.tabrd (c := encode (.tabrd col row opa)) (opcodeOf_wordT _ col row) (zeroT_wordT _ col row)
    simpa only [encode, Instr.word, Instr.operand, colOf_wordT, rowOf_wordT] using hdec
  | tabrand opa => exact .tabrand (opcodeOf_wordN _) (zeroN_wordN _)
  | tabcommit opa => exact .tabcommit (opcodeOf_wordN _) (zeroN_wordN _)

/-- Settles O1: the fields are read back, and the word matches the row of the instruction's mnemonic. -/
theorem decodeOfEncode : Obligations.DecodeOfEncode :=
  fun i => ⟨(wellFormed_iff (encode i)).mpr (matchingRows_word_ne_nil i), decode_encode i⟩

theorem wordN_eq {w : CmdWord} {op : Opcode} (hop : opcodeOf w = op) (hz : zeroN w = true) : wordN op = w :=
  word_ext_n ((opcodeOf_wordN op).trans hop.symm) ((low_wordN op).trans (beq_iff_eq.mp hz).symm)

theorem wordC_eq {w : CmdWord} {op : Opcode} (hop : opcodeOf w = op) (hz : zeroC w = true) :
    wordC op (csrOf w) = w :=
  word_ext_c ((opcodeOf_wordC op _).trans hop.symm) (csrOf_wordC op _)
    ((beq_iff_eq.mp (zeroC_wordC op _)).trans (beq_iff_eq.mp hz).symm)

theorem zeroT_iff (w : CmdWord) : zeroT w = true ↔ w.extractLsb' 19 5 = 0#5 ∧ w.extractLsb' 0 8 = 0#8 := by
  rw [zeroT, Bool.and_eq_true, beq_iff_eq, beq_iff_eq]

theorem wordT_eq {w : CmdWord} {op : Opcode} (hop : opcodeOf w = op) (hz : zeroT w = true) :
    wordT op (colOf w) (rowOf w) = w := by
  obtain ⟨hhigh, hlow⟩ := (zeroT_iff w).mp hz
  obtain ⟨hhigh', hlow'⟩ := (zeroT_iff _).mp (zeroT_wordT op (colOf w) (rowOf w))
  exact word_ext_t ((opcodeOf_wordT op _ _).trans hop.symm) (hhigh'.trans hhigh.symm) (colOf_wordT op _ _)
    (rowOf_wordT op _ _) (hlow'.trans hlow.symm)

theorem Decoded.word_eq {c : Command} {i : Instr} (h : Decoded c i) : i.word = c.word := by
  cases h with
  | csrr hop hz | csrw hop hz => exact wordC_eq hop hz
  | tabw hop hz | tabrd hop hz => exact wordT_eq hop hz
  | clrerr hop hz | mulh hop hz | fmix32 hop hz | fmix64 hop hz | tabh hop hz | tabbegin hop hz | tabrand hop hz
  | tabcommit hop hz => exact wordN_eq hop hz

theorem Decoded.operand_eq {c : Command} {i : Instr} (h : Decoded c i) : i.operand = c.opa := by
  cases h with
  | csrr | csrw | clrerr | mulh | fmix32 | fmix64 | tabh | tabbegin | tabw | tabrd | tabrand | tabcommit => rfl

theorem encode_of_decode {c : Command} {i : Instr} (h : decode c = .ok i) : encode i = c :=
  have hdec := decoded_of_decode h
  congrArg₂ Command.mk hdec.word_eq hdec.operand_eq

/-- Settles O2: word and operand of the instruction, one at a time. -/
theorem encodeOfDecode : Obligations.EncodeOfDecode :=
  fun _ _ => encode_of_decode

/-- A row of the opcode map, by the fields of the word (R84). -/
theorem matchesWord_iff_of_mem {r : TableRow} (hr : r ∈ opcodeTable) (w : CmdWord) :
    r.matchesWord w = true ↔ opcodeOf w = opcodeOf r.value ∧ zeroOf r.format w = true := by
  have hvalue : ∀ r ∈ opcodeTable, wordN (opcodeOf r.value) = r.value := by decide
  have hmatch := matchesWord_iff r.mnemonic r.format (opcodeOf r.value) w
  rw [hvalue r hr] at hmatch
  simp [hmatch]

theorem opcodeTable_disjoint :
    opcodeTable.Pairwise fun a b => ∀ w : CmdWord, ¬ (a.matchesWord w = true ∧ b.matchesWord w = true) := by
  have hopcodes : opcodeTable.Pairwise fun a b => opcodeOf a.value ≠ opcodeOf b.value := by decide
  refine hopcodes.imp_of_mem fun {a b} ha hb hne w ⟨hwa, hwb⟩ => hne ?_
  obtain ⟨hopa, -⟩ := (matchesWord_iff_of_mem ha w).mp hwa
  obtain ⟨hopb, -⟩ := (matchesWord_iff_of_mem hb w).mp hwb
  exact hopa.symm.trans hopb

/-- Every row of the opcode map is decoded: one instruction a row, in the order of the map (R84). -/
theorem exists_decoded_of_matchesWord (c : Command) :
    ∀ r ∈ opcodeTable, r.matchesWord c.word = true → ∃ i, Decoded c i := by
  simp only [opcodeTable_eq, List.forall_mem_cons, matchesWord_iff, Bool.and_eq_true, decide_eq_true_eq, and_imp]
  exact ⟨fun hop hz => ⟨_, .csrr hop hz⟩, fun hop hz => ⟨_, .csrw hop hz⟩, fun hop hz => ⟨_, .clrerr hop hz⟩,
    fun hop hz => ⟨_, .mulh hop hz⟩, fun hop hz => ⟨_, .fmix32 hop hz⟩, fun hop hz => ⟨_, .fmix64 hop hz⟩,
    fun hop hz => ⟨_, .tabh hop hz⟩, fun hop hz => ⟨_, .tabbegin hop hz⟩, fun hop hz => ⟨_, .tabw hop hz⟩,
    fun hop hz => ⟨_, .tabrd hop hz⟩, fun hop hz => ⟨_, .tabrand hop hz⟩, fun hop hz => ⟨_, .tabcommit hop hz⟩,
    List.forall_mem_nil _⟩

theorem matchingRows_eq_of_decode {c : Command} {i : Instr} (h : decode c = .ok i) :
    matchingRows c.word = matchingRows i.word := by
  rw [← (decoded_of_decode h).word_eq]

theorem matchingRows_eq_nil_of_decode_error {c : Command} {e : DecodeError} (h : decode c = .error e) :
    matchingRows c.word = [] := by
  refine List.filter_eq_nil_iff.mpr fun r hr hmatch => ?_
  obtain ⟨i, hdec⟩ := exists_decoded_of_matchesWord c r hr hmatch
  cases h.symm.trans (decode_of_decoded hdec)

/-- The decoder refuses exactly the words that match no row of the opcode map (R86). -/
theorem decode_error_iff (c : Command) : (∃ e, decode c = .error e) ↔ matchingRows c.word = [] := by
  refine ⟨fun ⟨_, h⟩ => matchingRows_eq_nil_of_decode_error h, fun hnil => ?_⟩
  cases hdec : decode c with
  | error e => exact ⟨e, rfl⟩
  | ok i => exact absurd (matchingRows_eq_of_decode hdec ▸ hnil) (matchingRows_word_ne_nil i)

/-- The operand decides nothing: two commands of one word decode to instructions of one word and mnemonic (R87, R93). -/
theorem decode_other_operand {w : CmdWord} {o : Data} {i : Instr} (h : decode ⟨w, o⟩ = .ok i) (o' : Data) :
    ∃ j, decode ⟨w, o'⟩ = .ok j ∧ j.word = i.word ∧ j.mnemonic = i.mnemonic ∧ j.operand = o' := by
  have hword : i.word = w := (decoded_of_decode h).word_eq
  cases hdec : decode ⟨w, o'⟩ with
  | error e => exact absurd (hword ▸ matchingRows_eq_nil_of_decode_error hdec) (matchingRows_word_ne_nil i)
  | ok j =>
    have hsame : j.word = i.word := (decoded_of_decode hdec).word_eq.trans hword.symm
    have hrows : [j.mnemonic] = [i.mnemonic] := by rw [← opcodeRow j, hsame, opcodeRow i]
    exact ⟨j, rfl, hsame, List.singleton_inj.mp hrows, (decoded_of_decode hdec).operand_eq⟩

/-- Settles O3: the rows differ in their opcodes, and the decoder accepts exactly the words of a row. -/
theorem everyWordIsOneCommandOrIllegal : Obligations.EveryWordIsOneCommandOrIllegal := by
  refine ⟨opcodeTable_disjoint, fun c => ?_, fun w o o' i h => decode_other_operand h o'⟩
  cases hdec : decode c with
  | error e => exact .inr ⟨e, rfl, matchingRows_eq_nil_of_decode_error hdec⟩
  | ok i => exact .inl ⟨i, rfl, (matchingRows_eq_of_decode hdec) ▸ opcodeRow i⟩

/-- R85: when every row on the opcodes `ops` has format `f`, a word on one of them that fails the zero fields of `f` is
illegal. -/
theorem illegal_of_zeroOf_eq_false {f : Format} {ops : List Opcode}
    (hformat : ∀ r ∈ opcodeTable, opcodeOf r.value ∈ ops → r.format = f) {w : CmdWord} (hop : opcodeOf w ∈ ops)
    (hz : zeroOf f w = false) (o : Data) : matchingRows w = [] ∧ ∃ e, decode ⟨w, o⟩ = .error e := by
  have hnil : matchingRows w = [] := by
    refine List.filter_eq_nil_iff.mpr fun r hr hmatch => ?_
    obtain ⟨hopr, hzr⟩ := (matchesWord_iff_of_mem hr w).mp hmatch
    rw [hformat r hr (hopr ▸ hop), hz] at hzr
    cases hzr
  exact ⟨hnil, (decode_error_iff ⟨w, o⟩).mpr hnil⟩

/-- Settles O5: each list of opcodes is a format of the map, and the field said to be non-zero is its zero field. -/
theorem reservedBitsMakeWordIllegal : Obligations.ReservedBitsMakeWordIllegal := by
  refine fun w o => ⟨fun hop hne => ?_, fun hop hne => ?_, fun hop hne => ?_⟩
  · exact illegal_of_zeroOf_eq_false (f := .n) (by decide) hop (beq_eq_false_iff_ne.mpr hne) o
  · exact illegal_of_zeroOf_eq_false (f := .c) (by decide) hop (beq_eq_false_iff_ne.mpr hne) o
  · have hz : ¬ zeroT w = true := by rwa [zeroT_iff, not_and_or]
    exact illegal_of_zeroOf_eq_false (f := .t) (by decide) hop (Bool.eq_false_iff.mpr hz) o

/-- Decoding reads the word alone: any operand gives the same refusal or an instruction of the same word (R87, R93). -/
theorem decode_map_word_congr (w : CmdWord) (o o' : Data) :
    (decode ⟨w, o⟩).map Instr.word = (decode ⟨w, o'⟩).map Instr.word := by
  simp only [decode, checked, apply_ite (Except.map Instr.word)] <;> rfl

theorem decode_error_other_operand {w : CmdWord} {o : Data} {e : DecodeError} (h : decode ⟨w, o⟩ = .error e)
    (o' : Data) : decode ⟨w, o'⟩ = .error e := by
  have hword := decode_map_word_congr w o o'
  rw [h] at hword
  cases hdec : decode ⟨w, o'⟩ with
  | error e' => simpa [hdec, Except.map] using hword.symm
  | ok j => simp [hdec, Except.map] at hword

/-- Settles O4: the legal words are encodings; the illegal ones are evaluated with operand 0. -/
theorem workedEncodingsDecode : Obligations.WorkedEncodingsDecode := by
  intro o
  refine ⟨decode_encode (.fmix32 o), decode_encode (.fmix64 o), decode_encode (.mulh o), decode_encode (.tabh o),
    decode_encode (.tabbegin o), decode_encode (.tabrand o), decode_encode (.tabcommit o), decode_encode (.clrerr o),
    decode_encode (.csrr 0x01#8 o), decode_encode (.csrw 0x10#8 o), decode_encode (.csrw 0x21#8 o),
    decode_encode (.tabw 0#3 0x41#8 o), decode_encode (.tabw 7#3 255#8 o), decode_encode (.tabrd 3#3 16#8 o),
    ?_, ?_, ?_, ?_, ?_⟩
  all_goals exact decode_error_other_operand (o := 0#64) (by decide) o

end Sys2Proof
end

section
/-! Every step answers, and a command with one response (00_scope.md R17, R18; 30_encoding.md R80). -/

namespace Sys2Proof.Machine

theorem exec_next (i : Instr) (s : State) : ∃ t, exec i s = .next t := by
  obtain ⟨e, -, -, hexec⟩ | ⟨u, d, -, hexec⟩ := exec_cases i s
  · exact ⟨_, hexec⟩
  · exact ⟨_, hexec⟩

theorem step_next (s : State) : ∃ t, step s = .next t := by
  cases hin : s.inputs with
  | nil => exact ⟨s, step_wait hin⟩
  | cons x rest =>
    cases x with
    | reset => exact ⟨_, step_reset hin⟩
    | command c =>
      cases hdec : decode c with
      | error e => exact ⟨_, step_illegal hin hdec⟩
      | ok i => exact step_command hin hdec ▸ exec_next i (s.setInputs rest)

/-- The effect of an instruction gives no response; `respond` gives it. -/
theorem Effect.responses {i : Instr} {s u : State} (h : Effect s i u) : u.responses = s.responses := by
  cases h with
  | csrw csr opa r => exact s.writeCsr_responses r opa
  | csrr | clrerr | mulh | fmix32 | fmix64 | tabh | tabbegin | tabw | tabrd | tabrand | tabcommit => rfl

theorem exec_answered {i : Instr} {s t : State} (h : exec i s = .next t) : ∃ st d, Answered s t st d := by
  obtain ⟨e, -, -, rfl⟩ | ⟨u, d, heff, rfl⟩ := exec_next_cases h
  · exact ⟨e, 0#64, (answered_addResponse_iff (s.recordError_responses e _)).mpr rfl⟩
  · exact ⟨.ok, d, (answered_addResponse_iff heff.responses).mpr rfl⟩

theorem step_command_answered {s t : State} {c : Command} {rest : List Input} (hin : s.inputs = .command c :: rest)
    (h : step s = .next t) : ∃ st d, Answered s t st d := by
  cases hdec : decode c with
  | error e =>
    rw [step_illegal hin hdec, raise_eq] at h
    cases h
    exact ⟨.illegalCmd, 0#64, (answered_addResponse_iff (by simp)).mpr rfl⟩
  | ok i =>
    rw [step_command hin hdec] at h
    exact exec_answered (s := s.setInputs rest) h

/-- Settles O8: `exec` and error entry each append one response, reset none, and a step takes one input. -/
theorem everyCommandHasOneResponse : Obligations.EveryCommandHasOneResponse := by
  refine ⟨step_next, fun s t c rest hin h => ?_, fun s t rest hin h => ?_⟩
  · exact ⟨by simp [step_inputs h, hin], step_command_answered hin h⟩
  · rw [step_reset hin] at h
    cases h
    exact ⟨rfl, rfl⟩

end Sys2Proof.Machine
end

section
/-! What a command sees of its operand (30_encoding.md R87): nothing, or its `W`-bit view. -/

namespace Sys2Proof.Machine

theorem Width.view_w32_congr {o o' : Data} (h : o.toNat % 2 ^ 32 = o'.toNat % 2 ^ 32) :
    Width.w32.view o = Width.w32.view o' :=
  BitVec.eq_of_toNat_eq (by rw [Width.view_toNat, Width.view_toNat]; exact h)

theorem mulHash_view_congr {cfg : Data} {k k' : Data} (h : (mulcfgWidth cfg).view k = (mulcfgWidth cfg).view k')
    (mula muln : Data) : mulHash cfg mula muln k = mulHash cfg mula muln k' := by
  simp only [mulHash, mulProduct, h]

theorem tabHash_view_congr {s : State} {k k' : Data}
    (h : (tabcfgWidth s.tabcfg).view k = (tabcfgWidth s.tabcfg).view k') : tabHash s k = tabHash s k' := by
  simp only [tabHash, h]

theorem State.memWrite_view_congr {w : Width} {v v' : Data} (h : w.view v = w.view v') (s : State) (c r : Nat) :
    s.memWrite w c r v = s.memWrite w c r v' := by
  rw [State.memWrite, State.memWrite, h]

theorem exec_fmix32_congr {o o' : Data} (h : o.toNat % 2 ^ 32 = o'.toNat % 2 ^ 32) (s : State) :
    exec (.fmix32 o) s = exec (.fmix32 o') s := by
  have hlow : o.setWidth 32 = o'.setWidth 32 := BitVec.eq_of_toNat_eq (by simpa using h)
  simp only [exec, execFmix32, hlow]

theorem exec_mulh_congr {s : State} {o o' : Data}
    (h : (mulcfgWidth s.mulcfg).view o = (mulcfgWidth s.mulcfg).view o') :
    exec (.mulh o) s = exec (.mulh o') s := by
  simp only [exec, execMulh, mulHash_view_congr h]

/-- The word of a refused `TABH` does not hold the operand. -/
theorem exec_tabh_congr {s : State} {o o' : Data}
    (h : (tabcfgWidth s.tabcfg).view o = (tabcfgWidth s.tabcfg).view o') :
    exec (.tabh o) s = exec (.tabh o') s := by
  simp only [exec, execTabh, tabHash_view_congr h, Instr.word]

/-- The word of a refused `TABW` does not hold the operand. -/
theorem exec_tabw_congr {s : State} {o o' : Data}
    (h : (tabcfgWidth s.tabcfg).view o = (tabcfgWidth s.tabcfg).view o') (col : Col) (row : Row) :
    exec (.tabw col row o) s = exec (.tabw col row o') s := by
  simp only [exec, execTabw, State.memWrite_view_congr h, Instr.word]

theorem mulcfgWidth_of_w64_clear {v : Data} (h : v.getLsbD 8 = false) : mulcfgWidth v = .w32 := by
  rw [mulcfgWidth, h]
  rfl

theorem tabcfgWidth_of_w64_clear {v : Data} (h : v.getLsbD 8 = false) : tabcfgWidth v = .w32 := by
  rw [tabcfgWidth, h]
  rfl

/-- Settles O32: six commands have one meaning for every operand; at `W = 32` the others read its 32-bit view. -/
theorem operandBitsIgnored : Obligations.OperandBitsIgnored := by
  intro s o o' csr col row
  refine ⟨rfl, rfl, rfl, rfl, rfl, rfl, fun hlow => ?_⟩
  have hview := Width.view_w32_congr hlow
  refine ⟨exec_fmix32_congr hlow s, fun hw => exec_mulh_congr ?_, fun hw => ?_⟩
  · rwa [mulcfgWidth_of_w64_clear hw]
  · rw [← tabcfgWidth_of_w64_clear hw] at hview
    exact ⟨exec_tabh_congr hview, exec_tabw_congr hview col row⟩

end Sys2Proof.Machine
end

section
/-! The fields of the values that `MULSETUP` and `TABSETUP` assemble (30_encoding.md R91; 10_state.md R29, R33). -/

namespace Sys2Proof.Machine

/-- The width a `W64` bit selects, by the weight of the bit in an assembled value. -/
theorem Width.ofW64_getLsbD {v : Data} {w : Width} (h : v.toNat / 2 ^ 8 % 2 * 256 = w64Bit w) :
    Width.ofW64 (v.getLsbD 8) = w := by
  rw [getLsbD_eq_decide_toNat]
  cases w with
  | w32 => rw [show v.toNat / 2 ^ 8 % 2 = 0 by simp only [w64Bit] at h; omega]; rfl
  | w64 => rw [show v.toNat / 2 ^ 8 % 2 = 1 by simp only [w64Bit] at h; omega]; rfl

theorem w64Bit_eq (w : Width) : w64Bit w = 0 ∨ w64Bit w = 256 := by
  cases w with
  | w32 => exact .inl rfl
  | w64 => exact .inr rfl

theorem mulSetup_fields {csel mode p : Nat} {w : Width} (hcsel : csel < 4) (hmode : mode < 2) (hp : p ≤ 64) {v : Data}
    (hv : v.toNat = csel * 1024 + mode * 512 + w64Bit w + p) :
    (mulcfgCsel v).toNat = csel ∧ mulcfgWidth v = w ∧ mulcfgMode v = decide (mode = 1) ∧ mulcfgP v = p ∧
      v.extractLsb' 12 52 = 0#52 ∧ v.getLsbD 7 = false := by
  have hw := w64Bit_eq w
  refine ⟨?_, Width.ofW64_getLsbD (by omega), ?_, ?_, ?_, ?_⟩
  · rw [mulcfgCsel, BitVec.extractLsb'_toNat, Nat.shiftRight_eq_div_pow]
    omega
  · rw [mulcfgMode, getLsbD_eq_decide_toNat, decide_eq_decide]
    omega
  · rw [mulcfgP, extractLsb'_zero_toNat]
    omega
  · rw [extractLsb'_eq_zero_iff]
    omega
  · rw [getLsbD_eq_decide_toNat, decide_eq_false_iff_not]
    omega

theorem tabSetup_fields {cols : Nat} {w : Width} (hcols : cols < 16) {v : Data} (hv : v.toNat = w64Bit w + cols) :
    tabcfgCols v = cols ∧ tabcfgWidth v = w ∧ v.extractLsb' 9 55 = 0#55 ∧ v.extractLsb' 4 4 = 0#4 := by
  have hw := w64Bit_eq w
  refine ⟨?_, Width.ofW64_getLsbD (by omega), ?_, ?_⟩
  · rw [tabcfgCols, extractLsb'_zero_toNat]
    omega
  · rw [extractLsb'_eq_zero_iff]
    omega
  · rw [extractLsb'_eq_zero_iff]
    omega

/-- Settles O59: the assembled sums fit in 64 bits, and each field is one summand. -/
theorem setupPseudoInstructionsFillFields : Obligations.SetupPseudoInstructionsFillFields := by
  refine ⟨fun csel mode p w hcsel hmode hp => ?_, fun cols w hcols => ?_, rfl⟩
  · have hw := w64Bit_eq w
    exact ⟨_, rfl, mulSetup_fields hcsel hmode hp (Nat.mod_eq_of_lt (by omega))⟩
  · have hw := w64Bit_eq w
    exact ⟨_, rfl, tabSetup_fields hcols (Nat.mod_eq_of_lt (by omega))⟩

end Sys2Proof.Machine
end

section
/-! The arithmetic of `MULH` (41_multiplicative.md R111, R113, R114, R116): the selected multiplier, the product, and
the two forms of the hash as natural numbers. -/

namespace Sys2Proof.Machine

theorem exec_mulh (k : Data) (s : State) :
    exec (.mulh k) s = .next (s.addResponse ⟨.ok, mulHash s.mulcfg s.mula s.muln k⟩) := rfl

theorem exec_mulh_eq_iff {k d : Data} {s : State} :
    exec (.mulh k) s = .next (s.addResponse ⟨.ok, d⟩) ↔ mulHash s.mulcfg s.mula s.muln k = d := by
  simp [exec_mulh, State.addResponse]

/-- The multiplier as a number: the row of R111 by `CSEL`, the column by `W64`. -/
theorem mulSelect_toNat (cfg mula : Data) :
    (mulSelect cfg mula).toNat =
      if cfg.getLsbD 8 then
        if (mulcfgCsel cfg).toNat = 0 then Config.aPrime64.toNat
        else if (mulcfgCsel cfg).toNat = 1 then Config.aFib64.toNat
        else if (mulcfgCsel cfg).toNat = 2 then Config.aFibPrime64.toNat else mula.toNat
      else
        if (mulcfgCsel cfg).toNat = 0 then Config.aPrime32.toNat
        else if (mulcfgCsel cfg).toNat = 1 then Config.aFib32.toNat
        else if (mulcfgCsel cfg).toNat = 2 then Config.aFibPrime32.toNat else mula.toNat % 2 ^ 32 := by
  have hcsel (n : Nat) (hn : n < 2 ^ 2) : mulcfgCsel cfg = BitVec.ofNat 2 n ↔ (mulcfgCsel cfg).toNat = n := by
    rw [← BitVec.toNat_inj, BitVec.toNat_ofNat, Nat.mod_eq_of_lt hn]
  have hzext (v : BitVec 32) : (v.setWidth 64).toNat = v.toNat :=
    BitVec.toNat_setWidth_of_le (by decide)
  rw [mulSelect, mulcfgWidth]
  cases cfg.getLsbD 8 with
  | false =>
    simp only [Width.ofW64, hcsel 0, hcsel 1, hcsel 2, apply_ite BitVec.toNat, hzext, Width.view_toNat, Width.bits,
      Nat.reduceLT, Nat.reducePow, Bool.false_eq_true, if_false]
  | true =>
    simp only [Width.ofW64, hcsel 0, hcsel 1, hcsel 2, apply_ite BitVec.toNat, Nat.reduceLT, Nat.reducePow, if_true]

/-- The multiplier reads `CSEL` and `W64` of `MULCFG`, and no other field (R111). -/
theorem mulSelect_congr {cfg cfg' : Data} (hwidth : mulcfgWidth cfg' = mulcfgWidth cfg)
    (hcsel : mulcfgCsel cfg' = mulcfgCsel cfg) (mula : Data) : mulSelect cfg' mula = mulSelect cfg mula := by
  simp only [mulSelect, hwidth, hcsel]

theorem Width.two_pow_bits_le (w : Width) : 2 ^ w.bits ≤ 2 ^ 64 := by
  cases w <;> decide

theorem mulProduct_eq (w : Width) (k a : Data) : mulProduct w k a = k.toNat * a.toNat % 2 ^ w.bits := by
  rw [mulProduct, Width.view_toNat, Nat.mod_mul_mod]

theorem mulProduct_lt (w : Width) (k a : Data) : mulProduct w k a < 2 ^ w.bits :=
  Nat.mod_lt _ (Nat.two_pow_pos _)

theorem mulTop_le (w : Width) (p x : Nat) : mulTop w p x ≤ x :=
  Nat.div_le_self _ _

/-- The top `p` bits of a `W`-bit value are `p` bits (R114). -/
theorem mulTop_lt {w : Width} {p x : Nat} (hp : p ≤ w.bits) (hx : x < 2 ^ w.bits) : mulTop w p x < 2 ^ p := by
  refine Nat.div_lt_of_lt_mul ?_
  rwa [← pow_add, Nat.sub_add_cancel hp]

theorem mulRange_le (w : Width) (n : Data) (x : Nat) : mulRange w n x ≤ x := by
  have hn : (w.view n).toNat < 2 ^ w.bits := by
    rw [Width.view_toNat]
    exact Nat.mod_lt _ (Nat.two_pow_pos _)
  exact Nat.div_le_of_le_mul ((Nat.mul_le_mul_left x hn.le).trans_eq (Nat.mul_comm _ _))

/-- The range-scaled form of a `W`-bit value lies in `[0, N)` (R116). -/
theorem mulRange_lt {w : Width} {n : Data} {x : Nat} (hx : x < 2 ^ w.bits) (hn : 1 ≤ n.toNat % 2 ^ w.bits) :
    mulRange w n x < n.toNat % 2 ^ w.bits := by
  rw [mulRange, Width.view_toNat]
  exact Nat.div_lt_of_lt_mul (Nat.mul_lt_mul_of_pos_right hx hn)

/-- Neither form exceeds the product, so the response holds the number of R113 itself. -/
theorem mulHash_toNat (cfg mula muln k : Data) :
    (mulHash cfg mula muln k).toNat =
      if mulcfgMode cfg then mulRange (mulcfgWidth cfg) muln (mulProduct (mulcfgWidth cfg) k (mulSelect cfg mula))
      else mulTop (mulcfgWidth cfg) (mulcfgP cfg) (mulProduct (mulcfgWidth cfg) k (mulSelect cfg mula)) := by
  have hprod := mulProduct_lt (mulcfgWidth cfg) k (mulSelect cfg mula)
  refine Nat.mod_eq_of_lt (lt_of_le_of_lt ?_ (hprod.trans_le (mulcfgWidth cfg).two_pow_bits_le))
  split
  · exact mulRange_le _ _ _
  · exact mulTop_le _ _ _

/-- Settles O34: the model's product, multiplier and fields are those of the pseudocode, number by number. -/
theorem mulhComputesHash : Obligations.MulhComputesHash := by
  intro opa s _
  have hbits : (mulcfgWidth s.mulcfg).bits = if s.mulcfg.getLsbD 8 then 64 else 32 := Width.ofW64_bits _
  simp only [exec_mulh, mulHash, mulProduct, mulRange, mulTop, Width.view_toNat, mulSelect_toNat, hbits]
  rfl

end Sys2Proof.Machine
end

section
/-! Mode 0 of `MULH`: the top `P` bits of the product (41_multiplicative.md R114, R115). -/

namespace Sys2Proof.Machine

theorem mulcfgP_le_of_legal {v : Data} (h : legalMulcfg v = true) : mulcfgP v ≤ (mulcfgWidth v).bits := by
  rw [legalMulcfg, Bool.and_eq_true, decide_eq_true_eq] at h
  obtain ⟨-, hp⟩ := h
  exact hp

variable {cfg : Data} (hmode : mulcfgMode cfg = false) (mula muln k : Data)

include hmode

theorem mulHash_top_shift : (mulHash cfg mula muln k).toNat =
    mulProduct (mulcfgWidth cfg) k (mulSelect cfg mula) >>> ((mulcfgWidth cfg).bits - mulcfgP cfg) := by
  rw [mulHash_toNat, hmode, Nat.shiftRight_eq_div_pow]
  rfl

theorem mulHash_top_full (hp : mulcfgP cfg = (mulcfgWidth cfg).bits) :
    (mulHash cfg mula muln k).toNat = mulProduct (mulcfgWidth cfg) k (mulSelect cfg mula) := by
  rw [mulHash_top_shift hmode, hp, Nat.sub_self, Nat.shiftRight_zero]

theorem mulHash_top_lt (hp : mulcfgP cfg ≤ (mulcfgWidth cfg).bits) :
    (mulHash cfg mula muln k).toNat < 2 ^ mulcfgP cfg := by
  rw [mulHash_toNat, hmode]
  exact mulTop_lt hp (mulProduct_lt _ _ _)

/-- The one value below `2^0` (R114). -/
theorem mulHash_top_none (hp : mulcfgP cfg = 0) : mulHash cfg mula muln k = 0#64 := by
  have hlt := mulHash_top_lt hmode mula muln k (hp.trans_le (Nat.zero_le _))
  rw [hp, pow_zero, Nat.lt_one_iff] at hlt
  exact BitVec.eq_of_toNat_eq hlt

end Sys2Proof.Machine
end

section
/-! The statements on mode 0 of `MULH` (41_multiplicative.md R114, R115). -/

namespace Sys2Proof.Machine

/-- Settles O35: a legal `MULCFG` has `P <= W`, so the shift leaves `P` bits. -/
theorem mulhTopBits : Obligations.MulhTopBits := by
  intro k s hlegal hmode
  exact ⟨_, exec_mulh k s, mulHash_top_lt hmode _ _ k (mulcfgP_le_of_legal hlegal), mulHash_top_full hmode _ _ k,
    fun _ => mulHash_top_shift hmode _ _ k, mulHash_top_none hmode _ _ k⟩

/-- Settles O36: both answers are shifts of one product, the first by 0, and the second is below `2^p`. -/
theorem narrowedHashIsTopBits : Obligations.NarrowedHashIsTopBits := by
  intro k f g s s' hmode hmode' hwidth hcsel hmula W p hfull hp hf hg
  rw [exec_mulh_eq_iff] at hf hg
  have hp' : mulcfgP s'.mulcfg ≤ (mulcfgWidth s'.mulcfg).bits := by rwa [hwidth]
  refine ⟨fun _ => BitVec.eq_of_toNat_eq ?_, fun hp0 => hg ▸ mulHash_top_none hmode' _ _ k hp0⟩
  have hshift : g.toNat = f.toNat >>> (W - p) := by
    rw [← hf, ← hg, mulHash_top_full hmode _ _ k hfull, mulHash_top_shift hmode', hwidth, hmula,
      mulSelect_congr hwidth hcsel]
  have hlt : g.toNat < 2 ^ p := hg ▸ mulHash_top_lt hmode' _ _ k hp'
  rw [BitVec.toNat_setWidth, BitVec.extractLsb'_toNat, ← hshift, Nat.mod_eq_of_lt hlt, Nat.mod_eq_of_lt g.isLt]

end Sys2Proof.Machine
end

section
/-! Mode 1 of `MULH`: the product scaled into `[0, N)` (41_multiplicative.md R116). -/

namespace Sys2Proof.Machine

theorem mulHash_range {cfg : Data} (hmode : mulcfgMode cfg = true) (mula muln k : Data) :
    (mulHash cfg mula muln k).toNat =
      mulRange (mulcfgWidth cfg) muln (mulProduct (mulcfgWidth cfg) k (mulSelect cfg mula)) := by
  rw [mulHash_toNat, hmode, if_pos rfl]

/-- `P` is not used in mode 1 (R116). -/
theorem mulHash_range_congr {cfg cfg' : Data} (hmode : mulcfgMode cfg = true) (hmode' : mulcfgMode cfg' = true)
    (hwidth : mulcfgWidth cfg' = mulcfgWidth cfg) (hcsel : mulcfgCsel cfg' = mulcfgCsel cfg) (mula muln k : Data) :
    mulHash cfg' mula muln k = mulHash cfg mula muln k := by
  refine BitVec.eq_of_toNat_eq ?_
  rw [mulHash_range hmode, mulHash_range hmode', hwidth, mulSelect_congr hwidth hcsel]

/-- Settles O37: the bound is that of the range-scaled form, and `P` occurs nowhere in it. -/
theorem rangeScaledHashBelowBound : Obligations.RangeScaledHashBelowBound := by
  intro k s hmode w N prod
  have hdata : (mulHash s.mulcfg s.mula s.muln k).toNat = mulRange w s.muln prod := mulHash_range hmode _ _ k
  have hscaled : mulRange w s.muln prod = prod * N / 2 ^ w.bits := by rw [mulRange, Width.view_toNat]
  refine ⟨_, exec_mulh k s, hdata.trans hscaled, fun hN => ?_, fun hN => BitVec.eq_of_toNat_eq ?_,
    fun v hv hwidth hcsel => exec_mulh_eq_iff.mpr (mulHash_range_congr hmode hv hwidth hcsel _ _ k)⟩
  · rw [hdata]
    exact mulRange_lt (mulProduct_lt _ _ _) hN
  · rw [hdata, hscaled, hN, Nat.mul_zero, Nat.zero_div]
    rfl

end Sys2Proof.Machine
end

section
/-! The registers behind `MULH` (10_state.md R38; 41_multiplicative.md R118, R119): every step keeps them that takes
neither reset nor an accepted write to one of them. -/

namespace Sys2Proof.Machine

/-- `t` has what fixes the multiplicative hash in `s`: `MULCFG`, `MULA` and `MULN` (R118). -/
structure SameMulInstance (s t : State) : Prop where
  mulcfg : t.mulcfg = s.mulcfg
  mula : t.mula = s.mula
  muln : t.muln = s.muln

theorem SameMulInstance.refl (s : State) : SameMulInstance s s := ⟨rfl, rfl, rfl⟩

theorem SameMulInstance.trans {s t u : State} (h : SameMulInstance s t) (h' : SameMulInstance t u) :
    SameMulInstance s u :=
  ⟨h'.mulcfg.trans h.mulcfg, h'.mula.trans h.mula, h'.muln.trans h.muln⟩

theorem SameMulInstance.addResponse {s t : State} (h : SameMulInstance s t) (r : Response) :
    SameMulInstance s (t.addResponse r) :=
  ⟨h.mulcfg, h.mula, h.muln⟩

theorem SameMulInstance.setInputs (s : State) (l : List Input) : SameMulInstance s (s.setInputs l) :=
  ⟨rfl, rfl, rfl⟩

theorem SameMulInstance.recordError (s : State) (e : Status) (w : CmdWord) : SameMulInstance s (s.recordError e w) :=
  ⟨s.recordError_mulcfg e w, s.recordError_mula e w, s.recordError_muln e w⟩

theorem mulHash_congr {s t : State} (h : SameMulInstance s t) (k : Data) :
    mulHash t.mulcfg t.mula t.muln k = mulHash s.mulcfg s.mula s.muln k := by
  rw [h.mulcfg, h.mula, h.muln]

/-- No effect but that of an accepted `CSRW` to one of the three registers changes them (R119). -/
theorem Effect.sameMulInstance {c : Command} {i : Instr} {s u : State} (heff : Effect s i u)
    (hd : decode c = .ok i) (hgood : ¬ replacesMulInstance (.command c)) : SameMulInstance s u := by
  cases heff with
  | csrr | clrerr | mulh | fmix32 | fmix64 | tabh | tabbegin | tabw | tabrd | tabrand | tabcommit =>
    exact ⟨rfl, rfl, rfl⟩
  | csrw csr opa r hr hw hl hv =>
    have haddr := csrAt_eq_some_iff.mp hr
    cases r with
    | id | status | ecause | ecmd | tabcfg | tabseed => exact ⟨rfl, rfl, rfl⟩
    | mulcfg => exact absurd ⟨csr, opa, hd, .inr (.inr ⟨haddr, hv⟩)⟩ hgood
    | mula => exact absurd ⟨csr, opa, hd, .inl haddr⟩ hgood
    | muln => exact absurd ⟨csr, opa, hd, .inr (.inl haddr)⟩ hgood

theorem exec_sameMulInstance {c : Command} {i : Instr} {s t : State} (hd : decode c = .ok i)
    (hgood : ¬ replacesMulInstance (.command c)) (h : exec i s = .next t) : SameMulInstance s t := by
  obtain ⟨e, -, -, rfl⟩ | ⟨u, d, heff, rfl⟩ := exec_next_cases h
  · exact (SameMulInstance.recordError s e i.word).addResponse _
  · exact (heff.sameMulInstance hd hgood).addResponse _

theorem step_keeps_mulInstance {s t : State} (hgood : ∀ x rest, s.inputs = x :: rest → ¬ replacesMulInstance x)
    (h : step s = .next t) : SameMulInstance s t := by
  obtain ⟨-, rfl⟩ | ⟨rest, hin, rfl⟩ | ⟨c, rest, e, -, -, rfl⟩ | ⟨c, rest, i, hin, hd, hexec⟩ := step_next_cases h
  · exact .refl _
  · exact absurd trivial (hgood _ _ hin)
  · exact ((SameMulInstance.setInputs s rest).trans (.recordError _ _ _)).addResponse _
  · exact (SameMulInstance.setInputs s rest).trans (exec_sameMulInstance hd (hgood _ _ hin) hexec)

theorem runSteps_keeps_mulInstance {n : Nat} {s t : State} (hgood : ∀ x ∈ s.inputs.take n, ¬ replacesMulInstance x)
    (hrun : runSteps n s = .next t) : SameMulInstance s t :=
  runSteps_keeps (P := SameMulInstance s) (fun _ _ hinst hin hstep => hinst.trans (step_keeps_mulInstance hin hstep))
    (.refl s) hgood hrun

/-- Settles O38: the hash reads the key and the three registers alone, and the run keeps them. -/
theorem mulhRepeatsUntilReconfigured : Obligations.MulhRepeatsUntilReconfigured := by
  refine ⟨fun k s s' hmulcfg hmula hmuln => ⟨_, exec_mulh k s, ?_⟩, fun n s t k d hgood hrun hans => ?_⟩
  · exact exec_mulh_eq_iff.mpr (mulHash_congr ⟨hmulcfg, hmula, hmuln⟩ k)
  · have hinst := runSteps_keeps_mulInstance hgood hrun
    exact exec_mulh_eq_iff.mpr ((mulHash_congr hinst k).trans (exec_mulh_eq_iff.mp hans))

end Sys2Proof.Machine
end

section
/-! The corner cases of `MULH` (41_multiplicative.md R117). -/

namespace Sys2Proof.Machine

/-- The hash sees the key through its product with the multiplier (R113). -/
theorem exec_mulh_product_congr {s : State} {k k' : Data}
    (h : mulProduct (mulcfgWidth s.mulcfg) k (mulSelect s.mulcfg s.mula) =
      mulProduct (mulcfgWidth s.mulcfg) k' (mulSelect s.mulcfg s.mula)) :
    exec (.mulh k) s = exec (.mulh k') s := by
  simp only [exec_mulh, mulHash, h]

/-- A zero product hashes to 0 in both modes. -/
theorem exec_mulh_of_product_zero {s : State} {k : Data}
    (h : mulProduct (mulcfgWidth s.mulcfg) k (mulSelect s.mulcfg s.mula) = 0) :
    exec (.mulh k) s = .next (s.addResponse ⟨.ok, 0#64⟩) := by
  refine exec_mulh_eq_iff.mpr (BitVec.eq_of_toNat_eq ?_)
  rw [mulHash_toNat, h, mulRange, mulTop, Nat.zero_mul, Nat.zero_div, Nat.zero_div, ite_self]
  rfl

/-- Twice `2^(W-1)` is `2^W`, which the product drops. -/
theorem mulProduct_add_half_two (w : Width) (k : Data) :
    mulProduct w (k + BitVec.ofNat 64 (2 ^ (w.bits - 1))) 2#64 = mulProduct w k 2#64 := by
  rw [mulProduct_eq, mulProduct_eq, BitVec.toNat_add, BitVec.toNat_ofNat, BitVec.toNat_ofNat]
  cases w with
  | w32 => simp only [Width.bits]; omega
  | w64 => simp only [Width.bits]; omega

/-- Multiplication by a number coprime to the modulus is a bijection of the residues. -/
theorem existsUnique_mul_mod_eq {a m h : Nat} (hco : a.Coprime m) (hh : h < m) :
    ∃! k, k < m ∧ k * a % m = h := by
  obtain ⟨k, hk, hmul⟩ := Nat.exists_mul_mod_eq_of_coprime h hco (Nat.ne_zero_of_lt hh)
  rw [Nat.mul_comm, Nat.mod_eq_of_lt hh] at hmul
  refine ⟨k, ⟨hk, hmul⟩, fun j ⟨hj, hjmul⟩ => ?_⟩
  have hmod : j ≡ k [MOD m] := Nat.ModEq.cancel_right_of_coprime hco.symm (hjmul.trans hmul.symm)
  exact hmod.eq_of_lt_of_lt hj hk

theorem coprime_two_pow_of_getLsbD_zero {a : Data} (h : a.getLsbD 0 = true) (n : Nat) : a.toNat.Coprime (2 ^ n) := by
  rw [getLsbD_eq_decide_toNat, decide_eq_true_eq, pow_zero, Nat.div_one] at h
  exact (Nat.coprime_two_right.mpr (Nat.odd_iff.mpr h)).pow_right n

/-- At `p = W` in mode 0 a `W`-bit value is the hash of a `W`-bit key exactly when it is the key's product. -/
theorem exec_mulh_full_iff {s : State} (hmode : mulcfgMode s.mulcfg = false)
    (hp : mulcfgP s.mulcfg = (mulcfgWidth s.mulcfg).bits) {k h : Nat} (hk : k < 2 ^ (mulcfgWidth s.mulcfg).bits)
    (hh : h < 2 ^ (mulcfgWidth s.mulcfg).bits) :
    exec (.mulh (BitVec.ofNat 64 k)) s = .next (s.addResponse ⟨.ok, BitVec.ofNat 64 h⟩) ↔
      k * (mulSelect s.mulcfg s.mula).toNat % 2 ^ (mulcfgWidth s.mulcfg).bits = h := by
  have hword := (mulcfgWidth s.mulcfg).two_pow_bits_le
  rw [exec_mulh_eq_iff, ← BitVec.toNat_inj, mulHash_top_full hmode _ _ _ hp, mulProduct_eq, BitVec.toNat_ofNat,
    BitVec.toNat_ofNat, Nat.mod_eq_of_lt (hk.trans_le hword), Nat.mod_eq_of_lt (hh.trans_le hword)]

/-- Settles O39: each corner is a fact about the product, and an odd multiplier is invertible mod `2^W`. -/
theorem mulhCornerCases : Obligations.MulhCornerCases := by
  intro s _ w A
  refine ⟨exec_mulh_of_product_zero ?_, fun hA k => exec_mulh_of_product_zero ?_, fun hw k k' hlow => ?_,
    fun hmode hp => ⟨fun hA k => exec_mulh_product_congr ?_, fun hodd h hh => ?_⟩⟩
  · rw [mulProduct_eq, BitVec.toNat_zero, Nat.zero_mul, Nat.zero_mod]
  · rw [mulProduct_eq, show mulSelect s.mulcfg s.mula = 0#64 from hA, BitVec.toNat_zero, Nat.mul_zero, Nat.zero_mod]
  · exact exec_mulh_congr (by rw [show mulcfgWidth s.mulcfg = .w32 from hw]; exact Width.view_w32_congr hlow)
  · rw [show mulSelect s.mulcfg s.mula = 2#64 from hA]
    exact mulProduct_add_half_two w k
  · refine (existsUnique_congr fun k => and_congr_right fun hk => ?_).mpr
      (existsUnique_mul_mod_eq (coprime_two_pow_of_getLsbD_zero hodd w.bits) hh)
    exact exec_mulh_full_iff hmode hp hk hh

end Sys2Proof.Machine
end

section
/-! The answers of `FMIX32` and `FMIX64` (42_murmur_finalizer.md R131, R132). -/

namespace Sys2Proof.Machine

theorem exec_fmix32 (x : Data) (s : State) :
    exec (.fmix32 x) s = .next (s.addResponse ⟨.ok, (fmix32 (x.setWidth 32)).setWidth 64⟩) := rfl

theorem exec_fmix64 (x : Data) (s : State) :
    exec (.fmix64 x) s = .next (s.addResponse ⟨.ok, fmix64 x⟩) := rfl

theorem setWidth_32_setWidth_64 (y : BitVec 32) : (y.setWidth 64).setWidth 32 = y := by
  rw [BitVec.setWidth_setWidth_of_le y (by decide), BitVec.setWidth_eq]

theorem setWidth_64_injective : Function.Injective (fun y : BitVec 32 => y.setWidth 64) :=
  Function.LeftInverse.injective setWidth_32_setWidth_64

/-- A 32-bit word extended with zeros is the answer to `FMIX32` exactly when it is the mix of the low word. -/
theorem exec_fmix32_eq_iff {x : Data} {y : BitVec 32} {s : State} :
    exec (.fmix32 x) s = .next (s.addResponse ⟨.ok, y.setWidth 64⟩) ↔ fmix32 (x.setWidth 32) = y := by
  rw [← setWidth_64_injective.eq_iff]
  simp [exec_fmix32, State.addResponse]

theorem exec_fmix64_eq_iff {x y : Data} {s : State} :
    exec (.fmix64 x) s = .next (s.addResponse ⟨.ok, y⟩) ↔ fmix64 x = y := by
  simp [exec_fmix64, State.addResponse]

/-- Settles O40: the low word of the operand is its truncation, and the five steps are those of the model's mix. -/
theorem fmix32Result : Obligations.Fmix32Result := by
  intro opa s x0 x1 x2 x3 x4 x5
  have hlow : opa.setWidth 32 = x0 := BitVec.setWidth_eq_extractLsb' (by decide)
  have hmix : fmix32 x0 = x5 := rfl
  rw [exec_fmix32, hlow, hmix]

/-- Settles O41: the five steps are those of the model's mix. -/
theorem fmix64Result : Obligations.Fmix64Result := by
  intro opa s x0 x1 x2 x3 x4 x5
  have hmix : fmix64 x0 = x5 := rfl
  exact exec_fmix64_eq_iff.mpr hmix

end Sys2Proof.Machine
end

section
/-! The steps of the finalizer are bijections of words, and so are both mixes (42_murmur_finalizer.md R131 to R134). -/

namespace Sys2Proof.Machine

theorem xorShift_xor {w : Nat} (n : Nat) (x y : BitVec w) : xorShift n (x ^^^ y) = xorShift n x ^^^ xorShift n y := by
  rw [xorShift, BitVec.ushiftRight_xor_distrib, xorShift, xorShift]
  ac_rfl

/-- A word equal to its own shift is equal to its quotient by `2^n`, and only 0 is. -/
theorem eq_zero_of_xorShift_eq_zero {w n : Nat} (hn : 1 ≤ n) {x : BitVec w} (h : xorShift n x = 0#w) : x = 0#w := by
  have hshift : x.toNat / 2 ^ n = x.toNat := by
    rw [← Nat.shiftRight_eq_div_pow, ← BitVec.toNat_ushiftRight, ← BitVec.xor_eq_zero_iff.mp h]
  have hpow : 2 ^ n ≠ 1 := (Nat.one_lt_two_pow (Nat.one_le_iff_ne_zero.mp hn)).ne'
  exact BitVec.eq_of_toNat_eq ((Nat.div_eq_self.mp hshift).resolve_right hpow)

theorem xorShift_bijective {w n : Nat} (hn : 1 ≤ n) : Function.Bijective (fun x : BitVec w => xorShift n x) := by
  refine Finite.injective_iff_bijective.mp fun x y (hxy : xorShift n x = xorShift n y) => ?_
  have hdiff : xorShift n (x ^^^ y) = 0#w := by rw [xorShift_xor, hxy, BitVec.xor_self]
  exact BitVec.xor_eq_zero_iff.mp (eq_zero_of_xorShift_eq_zero hn hdiff)

/-- An odd multiplier is coprime to `2^w`, so it cancels. -/
theorem mul_bijective_of_odd {w : Nat} {c : BitVec w} (hc : Odd c.toNat) :
    Function.Bijective (fun x : BitVec w => x * c) := by
  have hco : c.toNat.Coprime (2 ^ w) := (Nat.coprime_two_right.mpr hc).pow_right w
  refine Finite.injective_iff_bijective.mp fun x y (hxy : x * c = y * c) => BitVec.eq_of_toNat_eq ?_
  have hmod : x.toNat * c.toNat ≡ y.toNat * c.toNat [MOD 2 ^ w] := by
    rw [Nat.ModEq, ← BitVec.toNat_mul, ← BitVec.toNat_mul, hxy]
  exact (Nat.ModEq.cancel_right_of_coprime hco.symm hmod).eq_of_lt_of_lt x.isLt y.isLt

theorem fmix32_bijective : Function.Bijective fmix32 :=
  have hmul1 := mul_bijective_of_odd (c := 0x85EBCA6B#32) (by decide)
  have hmul2 := mul_bijective_of_odd (c := 0xC2B2AE35#32) (by decide)
  have hshift16 := xorShift_bijective (w := 32) (n := 16) (by decide)
  have hshift13 := xorShift_bijective (w := 32) (n := 13) (by decide)
  hshift16.comp (hmul2.comp (hshift13.comp (hmul1.comp hshift16)))

theorem fmix64_bijective : Function.Bijective fmix64 :=
  have hmul1 := mul_bijective_of_odd (c := 0xFF51AFD7ED558CCD#64) (by decide)
  have hmul2 := mul_bijective_of_odd (c := 0xC4CEB9FE1A85EC53#64) (by decide)
  have hshift33 := xorShift_bijective (w := 64) (n := 33) (by decide)
  hshift33.comp (hmul2.comp (hshift33.comp (hmul1.comp hshift33)))

theorem fmix32_eq_zero_iff {x : BitVec 32} : fmix32 x = 0#32 ↔ x = 0#32 :=
  fmix32_bijective.injective.eq_iff' (by decide)

theorem fmix64_eq_zero_iff {x : BitVec 64} : fmix64 x = 0#64 ↔ x = 0#64 :=
  fmix64_bijective.injective.eq_iff' (by decide)

/-- `FMIX32` answers 0 exactly for the operands whose low word is 0 (R134). -/
theorem exec_fmix32_zero_iff {x : Data} {s : State} :
    exec (.fmix32 x) s = .next (s.addResponse ⟨.ok, 0#64⟩) ↔ x.toNat % 2 ^ 32 = 0 := by
  have hlow : x.setWidth 32 = 0#32 ↔ x.toNat % 2 ^ 32 = 0 := by
    rw [← BitVec.toNat_inj, BitVec.toNat_setWidth, BitVec.toNat_zero]
  exact (exec_fmix32_eq_iff (y := 0#32)).trans (fmix32_eq_zero_iff.trans hlow)

/-- Settles O42: the steps are bijections, so the mixes are, and the answers are the mixes. -/
theorem finalizerIsPermutation : Obligations.FinalizerIsPermutation := by
  refine ⟨fun _ _ hn _ => xorShift_bijective hn, mul_bijective_of_odd (by decide), mul_bijective_of_odd (by decide),
    mul_bijective_of_odd (by decide), mul_bijective_of_odd (by decide), fun s y => ?_, fun s y => ?_,
    fun s x => ⟨exec_fmix32_zero_iff, ?_⟩⟩
  · refine (existsUnique_congr fun x => ?_).mpr (fmix32_bijective.existsUnique y)
    rw [exec_fmix32_eq_iff, setWidth_32_setWidth_64]
  · exact (existsUnique_congr fun x => exec_fmix64_eq_iff).mpr (fmix64_bijective.existsUnique y)
  · exact exec_fmix64_eq_iff.trans fmix64_eq_zero_iff

end Sys2Proof.Machine
end

section
/-! The buffer function of fewer than 16 bytes, and of none (43_murmur3_hash_reference.md R145 to R149). -/

namespace Sys2Proof.Machine

/-- Fewer than 16 bytes have no full block: they are all tail (R145). -/
theorem m3HashBuf_of_length_lt {d : List (BitVec 8)} (h : d.length < 16) (seed : BitVec 64) :
    m3HashBuf d seed = (m3Tail d ⟨seed, seed⟩).finish (BitVec.ofNat 64 d.length) := by
  have hblocks : d.length / 16 = 0 := Nat.div_eq_of_lt h
  simp only [m3HashBuf, hblocks, m3Blocks, Nat.mul_zero, List.drop_zero]

theorem m3Tail_nil (l : Lanes) : m3Tail [] l = l := rfl

/-- A tail of exactly 8 bytes folds into `h1` alone (R147). -/
theorem m3Tail_of_length_eq_eight {tail : List (BitVec 8)} (h : tail.length = 8) (l : Lanes) :
    m3Tail tail l = ⟨l.h1 ^^^ m3MixK1 (m3Assemble tail 0 8), l.h2⟩ := by
  simp [m3Tail, h]

theorem Lanes.finish_zero : Lanes.finish ⟨0#64, 0#64⟩ 0#64 = 0#128 := by decide

/-- Settles O57: no bytes are neither block nor tail, and the finalization maps zero lanes to zero. -/
theorem zeroLengthBufferHash : Obligations.ZeroLengthBufferHash := by
  have hempty (seed : BitVec 64) : m3HashBuf [] seed = Lanes.finish ⟨seed, seed⟩ 0#64 := by
    rw [m3HashBuf_of_length_lt (by decide), m3Tail_nil, List.length_nil]
  exact ⟨hempty, (hempty 0#64).trans Lanes.finish_zero⟩

end Sys2Proof.Machine
end

section
/-! A key assembled from its own bytes is the key (43_murmur3_hash_reference.md R144, R147, R150). -/

namespace Sys2Proof.Machine

/-- The byte of index `n` is xored in first, but the order of the loop does not matter (R147). -/
theorem m3Assemble_succ (tail : List (BitVec 8)) (n : Nat) :
    m3Assemble tail 0 (n + 1) = (tail.getD n 0#8).setWidth 64 <<< (8 * n) ^^^ m3Assemble tail 0 n := by
  have hfold (m : Nat) : m3Assemble tail 0 m =
      ((List.range m).reverse.map fun j => (tail.getD j 0#8).setWidth 64 <<< (8 * j)).foldl (· ^^^ ·) 0#64 := by
    rw [List.foldl_map, List.range_eq_range']
    rfl
  rw [hfold, hfold, List.range_succ, List.reverse_concat, List.map_cons, List.foldl_cons, BitVec.xor_comm,
    List.foldl_assoc]

theorem length_keyBytes (k : BitVec 64) : (keyBytes k).length = 8 := by
  rw [keyBytes, List.length_map, List.length_range]

theorem keyBytes_getD (k : BitVec 64) {n : Nat} (hn : n < 8) : (keyBytes k).getD n 0#8 = byteOf k n := by
  simp [keyBytes, hn]

/-- The bits of byte `n` of a key, put back in their place. -/
theorem getLsbD_byteOf_shiftLeft (k : BitVec 64) (n i : Nat) :
    ((byteOf k n).setWidth 64 <<< (8 * n)).getLsbD i = (decide (8 * n ≤ i ∧ i < 8 * (n + 1)) && k.getLsbD i) := by
  by_cases hlow : 8 * n ≤ i
  · have hplace : 8 * n + (i - 8 * n) = i := Nat.add_sub_cancel' hlow
    have hbyte : i - 8 * n < 8 ↔ i < 8 * (n + 1) := by omega
    by_cases hi : i < 64
    · simp [byteOf, BitVec.getLsbD_extractLsb', hlow, hplace, hbyte, hi]
    · simp [hi, BitVec.getLsbD_of_ge k i (Nat.le_of_not_lt hi)]
  · simp [hlow]

/-- The lowest `n` bytes of a key assemble to the lowest `8 * n` bits of it. -/
theorem getLsbD_m3Assemble_keyBytes (k : BitVec 64) {n : Nat} (hn : n ≤ 8) (i : Nat) :
    (m3Assemble (keyBytes k) 0 n).getLsbD i = (decide (i < 8 * n) && k.getLsbD i) := by
  induction n with
  | zero => simp [m3Assemble]
  | succ n ih =>
    rw [m3Assemble_succ, BitVec.getLsbD_xor, keyBytes_getD k hn, getLsbD_byteOf_shiftLeft, ih (Nat.le_of_succ_le hn)]
    by_cases hlow : i < 8 * n
    · have hsucc : i < 8 * (n + 1) := by omega
      simp [hlow, hsucc, Nat.not_le_of_lt hlow]
    · simp [hlow, Nat.le_of_not_lt hlow]

theorem m3Assemble_keyBytes (k : BitVec 64) : m3Assemble (keyBytes k) 0 8 = k :=
  BitVec.eq_of_getLsbD_eq fun i hi => by rw [getLsbD_m3Assemble_keyBytes k le_rfl, decide_eq_true hi, Bool.true_and]

/-- Settles O56: the 8 bytes are one tail, which folds into `h1` alone and assembles to the key itself. -/
theorem fixedInputEqualsBuffer : Obligations.FixedInputEqualsBuffer := by
  intro k seed
  have hlen := length_keyBytes k
  rw [m3HashBuf_of_length_lt (by omega), m3Tail_of_length_eq_eight hlen, m3Assemble_keyBytes, hlen, m3Hash64]

end Sys2Proof.Machine
end

section
/-! The reference functions finished by a host with the finalizer commands (43_murmur3_hash_reference.md R153). -/

namespace Sys2Proof.Machine

theorem m3Hash64_eq_cross_fmix64 (key seed : BitVec 64) :
    let l := Lanes.beforeFinalizer ⟨seed ^^^ m3MixK1 key, seed⟩ 8#64
    m3Hash64 key seed = (Lanes.cross ⟨fmix64 l.h1, fmix64 l.h2⟩).packed := rfl

theorem exec_fmix32_m3Body32 (key seed : BitVec 32) (s : State) :
    exec (.fmix32 ((m3Body32 key seed).setWidth 64)) s =
      .next (s.addResponse ⟨.ok, (m3Hash32 key seed).setWidth 64⟩) := by
  rw [exec_fmix32, setWidth_32_setWidth_64, m3Hash32]

/-- Settles O58: an answer of the finalizer depends on its operand alone, so neither order changes it. -/
theorem hostFinishesWithFinalizerCommands : Obligations.HostFinishesWithFinalizerCommands := by
  refine ⟨fun key seed s => ?_, fun key seed s => ⟨_, exec_fmix32_m3Body32 key seed s, ?_⟩⟩
  · exact ⟨_, _, exec_fmix64 _ _, exec_fmix64 _ _, exec_fmix64 _ _, exec_fmix64 _ _, m3Hash64_eq_cross_fmix64 key seed⟩
  · rw [← BitVec.setWidth_eq_extractLsb' (by decide), setWidth_32_setWidth_64]

end Sys2Proof.Machine
end

section
/-! The answer of each table command in each phase (44_tabulation.md R171 to R177), the checks in the order of R223. -/

namespace Sys2Proof.Machine

section
variable {s : State} (opa : Data) (col : Col) (row : Row)

theorem exec_tabh_building (hrdy : s.tabrdy = false) : exec (.tabh opa) s = raise .tabNotReady 0x30000000#32 s := by
  simp [exec, execTabh, hrdy, Instr.word, wordN]

theorem exec_tabrd_building (hrdy : s.tabrdy = false) :
    exec (.tabrd col row opa) s = raise .tabNotReady (wordT 0x33#8 col row) s := by
  simp [exec, execTabrd, hrdy, Instr.word]

theorem exec_tabrd_outside (hrdy : s.tabrdy = true) (hcol : tabcfgCols s.tabcfg ≤ col.toNat) :
    exec (.tabrd col row opa) s = raise .badIndex (wordT 0x33#8 col row) s := by
  simp [exec, execTabrd, hrdy, hcol, Instr.word]

theorem exec_tabw_ready (hrdy : s.tabrdy = true) :
    exec (.tabw col row opa) s = raise .tabLocked (wordT 0x32#8 col row) s :=
  if_pos hrdy

theorem exec_tabw_outside (hrdy : s.tabrdy = false) (hcol : tabcfgCols s.tabcfg ≤ col.toNat) :
    exec (.tabw col row opa) s = raise .badIndex (wordT 0x32#8 col row) s := by
  simp [exec, execTabw, hrdy, hcol, Instr.word]

theorem exec_tabrand_ready (hrdy : s.tabrdy = true) : exec (.tabrand opa) s = raise .tabLocked 0x34000000#32 s :=
  if_pos hrdy

theorem exec_tabrand_accepted (hrdy : s.tabrdy = false) :
    exec (.tabrand opa) s = respond 0#64 (s.fillColumns (tabcfgWidth s.tabcfg) (tabcfgCols s.tabcfg)) := by
  simp [exec, execTabrand, hrdy]

theorem exec_tabcommit_ready (hrdy : s.tabrdy = true) :
    exec (.tabcommit opa) s = raise .tabLocked 0x35000000#32 s :=
  if_pos hrdy

theorem exec_tabbegin (s : State) : exec (.tabbegin opa) s = respond 0#64 (s.setTabrdy false) := rfl

end

/-- `CSRW` of a writable register that is not locked, with a legal value (R201). -/
theorem exec_csrw_accepted {r : Csr} (hw : csrReadOnly r = false) {s : State}
    (hl : (csrLockable r && s.tabrdy) = false) {v : Data} (hv : csrLegal r v = true) :
    exec (.csrw (csrAddr r) v) s = respond 0#64 (s.writeCsr r v) := by
  rw [exec_csrw hw, if_neg (by simp [hl]), if_pos hv]

/-- Setting a bit of a word to what it is changes nothing. -/
theorem assignBit_self {v : Data} {i : Nat} (hi : i < 64) : assignBit v i (v.getLsbD i) = v := by
  refine BitVec.eq_of_getLsbD_eq fun j _ => ?_
  rw [assignBit_getLsbD v i j _ hi]
  split
  next hji => rw [hji]
  next => rfl

theorem State.setTabrdy_self (s : State) : s.setTabrdy s.tabrdy = s :=
  congrArg s.setStatus (assignBit_self (by decide))

theorem State.setTabrdy_sameRecord (s : State) (b : Bool) : SameRecord s (s.setTabrdy b) :=
  ⟨s.setTabrdy_err b, rfl, rfl⟩

/-- Settles O44: `TABBEGIN` is the update of the one bit, which in the building phase is 0 already. -/
theorem tabbeginEndsInstance : Obligations.TabbeginEndsInstance := by
  intro opa s
  refine ⟨_, exec_tabbegin opa s, rfl, s.setTabrdy_tabrdy false, s.setTabrdy_sameRecord false,
    assignBit_reserved s.status 0 false (by decide), .refl s, fun _ _ => rfl, .refl s, fun hrdy => ?_⟩
  rw [← hrdy, s.setTabrdy_self]

/-- Settles O47: `TABCOMMIT` is the update of the one bit, and reads no cell. -/
theorem tabcommitLocksInstance : Obligations.TabcommitLocksInstance := by
  refine fun opa s => ⟨exec_tabcommit_ready opa, fun hrdy => ?_⟩
  exact ⟨_, exec_tabcommit_accepted hrdy opa, rfl, s.setTabrdy_tabrdy true, s.setTabrdy_sameRecord true,
    assignBit_reserved s.status 0 true (by decide), .refl s, fun _ _ => rfl, .refl s⟩

/-- Settles O51: `TABRD` is refused with `BAD_INDEX` from column `COLS` on. -/
theorem tableShapeIsColsByRows : Obligations.TableShapeIsColsByRows := by
  refine fun s col row o hrdy => ⟨fun ⟨t, d, hexec, hans⟩ => ?_, fun hcol => ?_⟩
  · by_contra hout
    rw [exec_tabrd_outside o col row hrdy (Nat.le_of_not_lt hout), raise_eq] at hexec
    cases hexec
    cases (answered_addResponse_iff (s.recordError_responses _ _)).mp hans
  · exact ⟨_, _, exec_tabrd_accepted hrdy hcol row o, rfl⟩

end Sys2Proof.Machine
end

section
/-! Cells through the `W`-bit view, in arithmetic (10_state.md R37; 44_tabulation.md R173, R174, R177). -/

namespace Sys2Proof.Machine

/-- The view of the table commands: the low 32 or 64 bits, by `TABCFG.W64`. -/
theorem tabcfgWidth_view (cfg v : Data) :
    (tabcfgWidth cfg).view v = BitVec.ofNat 64 (v.toNat % 2 ^ (if cfg.getLsbD 8 then 64 else 32)) := by
  rw [← Width.ofW64_bits, ← tabcfgWidth, ← Width.view_toNat, BitVec.ofNat_toNat, BitVec.setWidth_eq]

/-- A legal `TABCFG` names at least one column and no more than there are (R34). -/
theorem tabcfgCols_bounds {cfg : Data} (h : legalTabcfg cfg = true) : 0 < tabcfgCols cfg ∧ tabcfgCols cfg ≤ 8 := by
  simp only [legalTabcfg, Bool.and_eq_true, Bool.or_eq_true, beq_iff_eq] at h
  omega

/-- Settles O49: the response is the cell through the `W`-bit view. -/
theorem tabrdReadsCell : Obligations.TabrdReadsCell := by
  refine fun col row opa s => ⟨exec_tabrd_building opa col row, exec_tabrd_outside opa col row, fun hrdy hcol => ?_⟩
  rw [exec_tabrd_accepted hrdy hcol, respond_eq, State.memRead, tabcfgWidth_view]

/-- Settles O45: the written cell holds the view of the operand, and `TABW` keeps every other cell (O31). -/
theorem tabwStoresCell : Obligations.TabwStoresCell := by
  refine fun col row opa s => ⟨exec_tabw_ready opa col row, exec_tabw_outside opa col row, fun hrdy hcol => ?_⟩
  have hexec := exec_tabw_accepted hrdy hcol row opa
  obtain ⟨-, hkept, -⟩ := cellsWrittenOnlyByTabwAndTabrand _ s _ hexec
  refine ⟨_, hexec, rfl, ?_, hkept col row opa rfl, rfl, rfl, rfl, .refl s, .refl s⟩
  rw [State.addResponse_cell, State.memWrite_cell_same, tabcfgWidth_view]

/-- Settles O46: every column below `COLS` exists when `TABCFG` is legal, and the fill is of those columns. -/
theorem tabrandFillsColumns : Obligations.TabrandFillsColumns := by
  refine fun opa s => ⟨exec_tabrand_ready opa, fun hrdy hlegal => ?_⟩
  have hcols : tabcfgCols s.tabcfg ≤ 8 := (tabcfgCols_bounds hlegal).2
  refine ⟨_, exec_tabrand_accepted opa hrdy, rfl, fun c r (hc : c < tabcfgCols s.tabcfg) hr => ?_,
    fun c r hc => s.fillColumns_cell_outside _ hc r, ?_, rfl, rfl, rfl, .refl s, rfl, rfl⟩
  · rw [State.addResponse_cell, s.fillColumns_cell_inside _ hc hcols hr, tabcfgWidth_view]
    rfl
  · change s.draws + 256 * min (tabcfgCols s.tabcfg) 8 = _
    rw [min_eq_left hcols]
    rfl

end Sys2Proof.Machine
end

section
/-! The table phase and the commands of the other units (44_tabulation.md R171). -/

namespace Sys2Proof.Machine

/-- `i` does not see the table phase: started in the other phase it has the same effect and the same response. -/
def PhaseBlind (i : Instr) : Prop :=
  ∀ (s t : State) (b : Bool), exec i s = .next t → exec i (s.setTabrdy b) = .next (t.setTabrdy b)

theorem assignBit_comm (v : Data) {i j : Nat} (hi : i < 64) (hj : j < 64) (hij : i ≠ j) (b c : Bool) :
    assignBit (assignBit v i b) j c = assignBit (assignBit v j c) i b := by
  refine BitVec.eq_of_getLsbD_eq fun k _ => ?_
  simp only [assignBit_getLsbD _ _ _ _ hi, assignBit_getLsbD _ _ _ _ hj]
  split_ifs with hkj hki
  · omega
  all_goals rfl

theorem State.setErr_setTabrdy (s : State) (b c : Bool) : (s.setTabrdy b).setErr c = (s.setErr c).setTabrdy b :=
  congrArg s.setStatus (assignBit_comm s.status (by decide) (by decide) (by decide) b c)

theorem State.clearRecord_setTabrdy (s : State) (b : Bool) :
    (s.setTabrdy b).clearRecord = s.clearRecord.setTabrdy b := by
  rw [State.clearRecord, s.setErr_setTabrdy b false]
  rfl

theorem State.recordError_setTabrdy (s : State) (b : Bool) (e : Status) (w : CmdWord) :
    (s.setTabrdy b).recordError e w = (s.recordError e w).setTabrdy b := by
  cases herr : s.err with
  | true => rw [State.recordError_of_err _ (by simpa), State.recordError_of_err _ herr]
  | false =>
    rw [State.recordError_of_clear _ (by simpa), State.recordError_of_clear _ herr]
    exact State.setErr_setTabrdy ((s.setEcause ((statusCode e).setWidth 64)).setEcmd (w.setWidth 64)) b true

theorem State.writeCsr_setTabrdy (s : State) (b : Bool) (r : Csr) (v : Data) :
    (s.setTabrdy b).writeCsr r v = (s.writeCsr r v).setTabrdy b := by
  cases r <;> rfl

theorem State.readCsr_setTabrdy (s : State) (b : Bool) {r : Csr} (hr : r ≠ .status) :
    (s.setTabrdy b).readCsr r = s.readCsr r := by
  cases r with
  | status => exact absurd rfl hr
  | id | ecause | ecmd | mulcfg | mula | muln | tabcfg | tabseed => rfl

theorem respond_setTabrdy {s t : State} {d : Data} (b : Bool) (h : respond d s = .next t) :
    respond d (s.setTabrdy b) = .next (t.setTabrdy b) := by
  cases h
  rfl

theorem raise_setTabrdy {s t : State} {e : Status} {w : CmdWord} (b : Bool) (h : raise e w s = .next t) :
    raise e w (s.setTabrdy b) = .next (t.setTabrdy b) := by
  cases h
  rw [raise_eq, s.recordError_setTabrdy]
  rfl

theorem PhaseBlind.clrerr (o : Data) : PhaseBlind (.clrerr o) := by
  intro s t b h
  change respond 0#64 (s.setTabrdy b).clearRecord = _
  rw [s.clearRecord_setTabrdy]
  exact respond_setTabrdy b h

/-- `CSRW` of a writable register that is never locked (R201). -/
theorem PhaseBlind.csrw {r : Csr} (hw : csrReadOnly r = false) (hl : csrLockable r = false) (o : Data) :
    PhaseBlind (.csrw (csrAddr r) o) := by
  intro s t b h
  simp only [exec_csrw hw, hl, Bool.false_and, Bool.false_eq_true, if_false] at h ⊢
  split at h
  next hv => rw [if_pos hv, s.writeCsr_setTabrdy]; exact respond_setTabrdy b h
  next hv => rw [if_neg hv]; exact raise_setTabrdy b h

/-- `CSRR` of any address but that of `STATUS`, which holds the phase (R200). -/
theorem PhaseBlind.csrr {csr : CsrAddr} (hcsr : csr ≠ csrAddr .status) (o : Data) : PhaseBlind (.csrr csr o) := by
  intro s t b h
  simp only [exec, execCsrr] at h ⊢
  cases hr : csrAt csr with
  | none =>
    rw [hr] at h
    exact raise_setTabrdy b h
  | some r =>
    rw [hr] at h
    have hother : r ≠ .status := fun hstatus => hcsr (hstatus ▸ csrAt_eq_some_iff.mp hr)
    simp only [s.readCsr_setTabrdy b hother]
    exact respond_setTabrdy b h

/-- The hash commands that read no table, `CLRERR`, and `CSRW` to the registers that are never locked (R171). -/
theorem phaseBlind_of_mem {i : Instr} {o : Data}
    (hi : i ∈ [.mulh o, .fmix32 o, .fmix64 o, .clrerr o, .csrw 0x10#8 o, .csrw 0x11#8 o, .csrw 0x12#8 o]) :
    PhaseBlind i := by
  simp only [List.mem_cons, List.not_mem_nil, or_false] at hi
  obtain rfl | rfl | rfl | rfl | rfl | rfl | rfl := hi
  · exact fun _ _ b h => respond_setTabrdy b h
  · exact fun _ _ b h => respond_setTabrdy b h
  · exact fun _ _ b h => respond_setTabrdy b h
  · exact .clrerr o
  · exact .csrw (r := .mulcfg) rfl rfl o
  · exact .csrw (r := .mula) rfl rfl o
  · exact .csrw (r := .muln) rfl rfl o

/-- Settles O43: the phase decides each table command; the other commands are phase-blind, but for the read of
`STATUS`, whose data alone differ. -/
theorem phaseDecidesTableCommands : Obligations.PhaseDecidesTableCommands := by
  refine ⟨fun s v o col row hrdy => ?_, fun s v o col row hrdy => ?_, fun i s t t' b o hi hexec hexec' => ?_⟩
  · have hunlocked (r : Csr) : (csrLockable r && s.tabrdy) = false := by simp [hrdy]
    exact ⟨exec_tabh_building o hrdy, exec_tabrd_building o col row hrdy,
      fun hv => ⟨_, exec_csrw_accepted (r := .tabcfg) rfl (hunlocked _) hv, rfl⟩,
      ⟨_, exec_csrw_accepted (r := .tabseed) rfl (hunlocked _) rfl, rfl⟩,
      fun hcol => ⟨_, exec_tabw_accepted hrdy hcol row o, rfl⟩,
      ⟨_, exec_tabrand_accepted o hrdy, rfl⟩,
      ⟨_, exec_tabcommit_accepted hrdy o, rfl, s.setTabrdy_tabrdy true⟩,
      ⟨_, exec_tabbegin o s, rfl, s.setTabrdy_tabrdy false⟩⟩
  · exact ⟨exec_csrw_locked (r := .tabcfg) rfl rfl hrdy v, exec_csrw_locked (r := .tabseed) rfl rfl hrdy v,
      exec_tabw_ready o col row hrdy, exec_tabrand_ready o hrdy, exec_tabcommit_ready o hrdy,
      ⟨_, _, exec_tabh_accepted hrdy o, rfl⟩,
      fun hcol => ⟨_, _, exec_tabrd_accepted hrdy hcol row o, rfl⟩,
      ⟨_, exec_tabbegin o s, rfl, s.setTabrdy_tabrdy false⟩⟩
  · by_cases hstatus : i = .csrr (csrAddr .status) o
    · subst hstatus
      rw [exec_csrr, respond_eq] at hexec hexec'
      cases hexec
      cases hexec'
      exact ⟨.ok, _, _, rfl, rfl, fun hother => absurd rfl hother, .refl s, fun _ _ => rfl,
        s.setTabrdy_sameRecord b⟩
    · have hblind : PhaseBlind i := by
        obtain hi | ⟨csr, rfl⟩ := hi
        · exact phaseBlind_of_mem hi
        · exact .csrr (fun hcsr => hstatus (hcsr ▸ rfl)) o
      obtain ⟨st, d, hans⟩ := exec_answered hexec
      rw [hblind s t b hexec] at hexec'
      cases hexec'
      exact ⟨st, d, d, hans, hans, fun _ => rfl, .refl t, fun _ _ => rfl, t.setTabrdy_sameRecord b⟩

end Sys2Proof.Machine
end

section
/-! The exclusive or of values over a list, onto a start value: the order does not matter, and equal values cancel. -/

namespace Sys2Proof.Machine

/-- `start`, with the value `f` gives each element of the list xored in, one after another. -/
def xorOver {α : Type} (f : α → Data) (start : Data) (l : List α) : Data :=
  l.foldl (fun acc x => acc ^^^ f x) start

section
variable {α : Type} {f g : α → Data} {start : Data} {l l' : List α}

theorem xorOver_cons (x : α) : xorOver f start (x :: l) = xorOver f (start ^^^ f x) l := rfl

theorem xorOver_map {β : Type} (h : β → α) (k : List β) : xorOver f start (k.map h) = xorOver (f ∘ h) start k :=
  List.foldl_map

theorem xorOver_congr (h : ∀ x ∈ l, f x = g x) : xorOver f start l = xorOver g start l :=
  List.foldl_ext _ _ _ fun acc x hx => congrArg (acc ^^^ ·) (h x hx)

theorem xorOver_perm (h : l.Perm l') : xorOver f start l = xorOver f start l' :=
  h.foldl_eq' (fun x _ y _ acc => by ac_rfl) start

theorem xorOver_cancel {x y : α} (h : f x = f y) : xorOver f start (x :: y :: l) = xorOver f start l := by
  rw [xorOver_cons, xorOver_cons, h, BitVec.xor_assoc, BitVec.xor_self, BitVec.xor_zero]

theorem xorOver_xor_start (e : Data) : xorOver f (start ^^^ e) l = xorOver f start l ^^^ e := by
  induction l generalizing start with
  | nil => rfl
  | cons x l ih =>
    rw [xorOver_cons, xorOver_cons, ← ih]
    ac_rfl

theorem xorOver_of_zero (h : ∀ x ∈ l, f x = 0#64) : xorOver f start l = start := by
  induction l with
  | nil => rfl
  | cons x l ih =>
    obtain ⟨hx, hl⟩ := List.forall_mem_cons.mp h
    rw [xorOver_cons, hx, BitVec.xor_zero, ih hl]

/-- At two places whose values equal each other it does not matter which values they are. -/
theorem xorOver_eq_of_pair [DecidableEq α] (hl : l.Nodup) {x y : α} (hx : x ∈ l) (hy : y ∈ l) (hxy : y ≠ x)
    (hf : f x = f y) (hg : g x = g y) (hother : ∀ z ∈ l, z ≠ x → z ≠ y → f z = g z) :
    xorOver f start l = xorOver g start l := by
  have hy' : y ∈ l.erase x := hl.mem_erase_iff.mpr ⟨hxy, hy⟩
  have hperm : l.Perm (x :: y :: (l.erase x).erase y) :=
    (List.perm_cons_erase hx).trans ((List.perm_cons_erase hy').cons x)
  rw [xorOver_perm hperm, xorOver_perm hperm, xorOver_cancel hf, xorOver_cancel hg]
  refine xorOver_congr fun z hz => ?_
  obtain ⟨hzy, hz'⟩ := (hl.erase x).mem_erase_iff.mp hz
  obtain ⟨hzx, hzl⟩ := hl.mem_erase_iff.mp hz'
  exact hother z hzl hzx hzy

/-- When every element occurs an even number of times, all of them cancel in pairs. -/
theorem xorOver_of_even_count [DecidableEq α] (h : ∀ x, Even (l.count x)) : xorOver f start l = start := by
  induction hn : l.length using Nat.strong_induction_on generalizing l with
  | h n ih =>
    cases l with
    | nil => rfl
    | cons x l =>
      have hodd : ¬ Even (l.count x) := by
        have hx := h x
        rwa [List.count_cons_self, Nat.even_add_one] at hx
      have hmem : x ∈ l := List.count_pos_iff.mp (Nat.pos_of_ne_zero fun h0 => hodd (h0 ▸ Even.zero))
      have hperm : (x :: l).Perm (x :: x :: l.erase x) := (List.perm_cons_erase hmem).cons x
      rw [xorOver_perm hperm, xorOver_cancel rfl]
      refine ih _ ?_ (fun y => ?_) rfl
      · rw [← hn, hperm.length_eq]
        simp only [List.length_cons]
        omega
      · have hy := h y
        rw [hperm.count_eq, List.count_cons, List.count_cons] at hy
        split at hy
        · rwa [Nat.even_add_one, Nat.even_add_one, not_not] at hy
        · exact hy

end
end Sys2Proof.Machine
end

section
/-! `TABH` as the exclusive or of the seed and the cells that the key's bytes name (44_tabulation.md R176, R177,
R179). -/

namespace Sys2Proof.Machine

/-- The cell that byte `i` of the key names, through the `W`-bit view (R176). -/
def State.keyCell (s : State) (key : Data) (i : Nat) : Data :=
  s.memRead (tabcfgWidth s.tabcfg) (i % tabcfgCols s.tabcfg) (byteOf key i).toNat

theorem Width.bytes_eq (w : Width) : w.bytes = w.bits / 8 := by
  cases w <;> rfl

theorem byteOf_toNat (v : Data) (i : Nat) : (byteOf v i).toNat = v.toNat / 2 ^ (8 * i) % 2 ^ 8 := by
  rw [byteOf, BitVec.extractLsb'_toNat, Nat.shiftRight_eq_div_pow]

/-- The `W`-bit view keeps the key's `W/8` bytes. -/
theorem byteOf_view {w : Width} {i : Nat} (hi : i < w.bytes) (v : Data) : byteOf (w.view v) i = byteOf v i := by
  cases w with
  | w64 => rfl
  | w32 =>
    refine BitVec.eq_of_getLsbD_eq fun j hj => ?_
    have hbit : 8 * i + j < 32 := by
      simp only [Width.bytes] at hi
      omega
    have hword : 8 * i + j < 64 := by omega
    simp [byteOf, Width.view, BitVec.getLsbD_extractLsb', hbit, hword]

theorem tabAccumulate_eq_xorOver (s : State) (w : Width) (cols : Nat) (key start : Data) (n : Nat) :
    tabAccumulate s w cols key start n =
      xorOver (fun i => s.memRead w (i % cols) (byteOf key i).toNat) start (List.range n) := by
  induction n with
  | zero => rfl
  | succ n ih => rw [tabAccumulate, ih, xorOver, xorOver, List.range_succ, List.foldl_concat]

theorem tabHash_eq_xorOver (s : State) (key : Data) :
    tabHash s key =
      xorOver (s.keyCell key) ((tabcfgWidth s.tabcfg).view s.tabseed) (List.range (tabcfgWidth s.tabcfg).bytes) := by
  refine (tabAccumulate_eq_xorOver s _ _ _ _ _).trans (xorOver_congr fun i hi => ?_)
  rw [byteOf_view (List.mem_range.mp hi), State.keyCell]

theorem respond_eq_next_iff {s : State} {d d' : Data} :
    respond d s = .next (s.addResponse ⟨.ok, d'⟩) ↔ d = d' := by
  simp [respond_eq, State.addResponse]

theorem exec_tabh_eq_iff {s : State} (hrdy : s.tabrdy = true) {key d : Data} :
    exec (.tabh key) s = .next (s.addResponse ⟨.ok, d⟩) ↔ tabHash s key = d := by
  rw [exec_tabh_accepted hrdy, respond_eq_next_iff]

/-- Settles O48: the loop of the model is the fold, and views and bytes are remainders. -/
theorem tabhXorsCells : Obligations.TabhXorsCells := by
  intro opa s W cols key
  have hbits : (tabcfgWidth s.tabcfg).bits = W := Width.ofW64_bits _
  have hview (v : Data) : (tabcfgWidth s.tabcfg).view v = BitVec.ofNat 64 (v.toNat % 2 ^ W) := tabcfgWidth_view _ v
  have hkey : ((tabcfgWidth s.tabcfg).view opa).toNat = key := by rw [Width.view_toNat, hbits]
  refine ⟨exec_tabh_building opa, fun hrdy => (exec_tabh_eq_iff hrdy).mpr ?_⟩
  refine (tabAccumulate_eq_xorOver s _ _ _ _ _).trans ?_
  simp only [byteOf_toNat, hkey, State.memRead, Width.bytes_eq, hbits]
  simp only [hview]
  rfl

/-- Settles O50: a `TABRD` that answers `OK` answers the cell that the key's byte names. -/
theorem tabhIsXorOfTabrdResponses : Obligations.TabhIsXorOfTabrdResponses := by
  intro s key d hrdy hlegal w cols hread
  obtain ⟨hpos, hcols⟩ := tabcfgCols_bounds hlegal
  rw [exec_tabh_eq_iff hrdy, tabHash_eq_xorOver]
  refine xorOver_congr fun i hi => ?_
  have hcol : i % cols < cols := Nat.mod_lt i hpos
  have hcolNat : (BitVec.ofNat 3 (i % cols)).toNat = i % cols :=
    (BitVec.toNat_ofNat _ _).trans (Nat.mod_eq_of_lt (hcol.trans_le hcols))
  have hd := hread i (List.mem_range.mp hi)
  rwa [exec_tabrd_accepted hrdy (hcolNat.symm ▸ hcol), respond_eq_next_iff, hcolNat] at hd

/-- Settles O52: byte `i` names column `i mod COLS`, which is below `COLS` and not above `i`. -/
theorem tabhUsesOnlyColumnsInUse : Obligations.TabhUsesOnlyColumnsInUse := by
  intro s s' key d hrdy hrdy' hlegal htabcfg htabseed hcells hans
  rw [exec_tabh_eq_iff hrdy, tabHash_eq_xorOver] at hans
  rw [exec_tabh_eq_iff hrdy', tabHash_eq_xorOver, htabcfg, htabseed, ← hans]
  refine xorOver_congr fun i hi => ?_
  have hcol : i % tabcfgCols s.tabcfg < min (tabcfgCols s.tabcfg) (tabcfgWidth s.tabcfg).bytes :=
    lt_min (Nat.mod_lt i (tabcfgCols_bounds hlegal).1) ((Nat.mod_le i _).trans_lt (List.mem_range.mp hi))
  simp only [State.keyCell, State.memRead, htabcfg, hcells _ _ hcol (byteOf key i).isLt]

end Sys2Proof.Machine
end

section
/-! What follows from the exclusive-or structure of `TABH` (44_tabulation.md R181). -/

namespace Sys2Proof.Machine

theorem State.keyCell_congr {s : State} {key key' : Data} {i j : Nat} (hbyte : byteOf key i = byteOf key' j)
    (hcol : i % tabcfgCols s.tabcfg = j % tabcfgCols s.tabcfg) : s.keyCell key i = s.keyCell key' j := by
  rw [State.keyCell, State.keyCell, hbyte, hcol]

/-- With one column the row alone picks the cell, so the hash is over the key's byte values. -/
theorem tabHash_of_one_column {s : State} (hcols : tabcfgCols s.tabcfg = 1) (key : Data) :
    tabHash s key =
      xorOver (fun b : BitVec 8 => s.memRead (tabcfgWidth s.tabcfg) 0 b.toNat)
        ((tabcfgWidth s.tabcfg).view s.tabseed)
        ((List.range (tabcfgWidth s.tabcfg).bytes).map (byteOf key)) := by
  rw [tabHash_eq_xorOver, xorOver_map]
  refine xorOver_congr fun i _ => ?_
  rw [State.keyCell, hcols, Nat.mod_one]
  rfl

theorem tabHash_of_even_bytes {s : State} (hcols : tabcfgCols s.tabcfg = 1) {key : Data}
    (heven : ∀ b, Even ((List.range (tabcfgWidth s.tabcfg).bytes).countP (fun i => byteOf key i == b))) :
    tabHash s key = (tabcfgWidth s.tabcfg).view s.tabseed := by
  rw [tabHash_of_one_column hcols]
  refine xorOver_of_even_count fun b => ?_
  rw [List.count_eq_countP, List.countP_map]
  exact heven b

/-- The bytes of `0x00000101` are two ones and two zeros. -/
theorem tabHash_0x101 {s : State} (hcols : tabcfgCols s.tabcfg = 1) (hw : tabcfgWidth s.tabcfg = .w32) :
    tabHash s 0x00000101#64 = Width.w32.view s.tabseed := by
  have hbytes : (List.range Width.w32.bytes).map (byteOf 0x00000101#64) = [1#8, 1#8, 0#8, 0#8] := by decide
  rw [tabHash_of_one_column hcols, hw, hbytes, xorOver_cancel rfl, xorOver_cancel rfl]
  rfl

theorem tabHash_of_cells_zero {s : State} (hlegal : legalTabcfg s.tabcfg = true)
    (hzero : ∀ c r : Nat, c < 8 → r < 256 → s.cell c r = 0#64) (key : Data) :
    tabHash s key = (tabcfgWidth s.tabcfg).view s.tabseed := by
  obtain ⟨hpos, hcols⟩ := tabcfgCols_bounds hlegal
  rw [tabHash_eq_xorOver]
  refine xorOver_of_zero fun i _ => ?_
  rw [State.keyCell, State.memRead, hzero _ _ ((Nat.mod_lt i hpos).trans_le hcols) (byteOf key i).isLt,
    tabcfgWidth_view, BitVec.toNat_zero, Nat.zero_mod]

theorem tabHash_xor_tabseed (s : State) (e key : Data) :
    tabHash (s.setTabseed (s.tabseed ^^^ e)) key = tabHash s key ^^^ (tabcfgWidth s.tabcfg).view e := by
  rw [tabHash_eq_xorOver, tabHash_eq_xorOver, ← xorOver_xor_start, ← Width.view_xor]
  rfl

/-- Settles O53: each consequence is one of the fold's. -/
theorem tabhXorStructure : Obligations.TabhXorStructure := by
  intro s key d hrdy hlegal hans w cols
  obtain rfl := (exec_tabh_eq_iff hrdy).mp hans
  refine ⟨fun l hl => ?_, fun key' i j hij hj hcol hkey hkey' hother => ?_,
    fun hcols heven => tabHash_of_even_bytes hcols heven, fun hcols hw hkey => ?_,
    fun hzero => tabHash_of_cells_zero hlegal hzero key, fun e => ?_⟩
  · exact (tabHash_eq_xorOver s key).trans (xorOver_perm hl.symm)
  · rw [exec_tabh_eq_iff hrdy, tabHash_eq_xorOver, tabHash_eq_xorOver]
    refine xorOver_eq_of_pair List.nodup_range (List.mem_range.mpr (hij.trans hj)) (List.mem_range.mpr hj) hij.ne'
      (State.keyCell_congr hkey' hcol) (State.keyCell_congr hkey hcol) fun n hn hni hnj => ?_
    exact State.keyCell_congr (hother n (List.mem_range.mp hn) hni hnj) rfl
  · rw [← BitVec.setWidth_eq_extractLsb' (by decide), hkey, tabHash_0x101 hcols hw, Width.view]
  · rw [exec_tabh_eq_iff (by simpa), tabHash_xor_tabseed]

end Sys2Proof.Machine
end

section
/-! `CSRR` and `CSRW` over every address (45_system.md R200, R201). An address names one of the nine registers of R24 or
is unimplemented; the value checks of `CSRW` are said in the bits of the value. -/

namespace Sys2Proof.Machine

theorem csrAt_eq_none_iff {a : CsrAddr} :
    csrAt a = none ↔ a ∉ [0x00#8, 0x01#8, 0x02#8, 0x03#8, 0x10#8, 0x11#8, 0x12#8, 0x20#8, 0x21#8] := by
  constructor
  · intro hnone hmem
    change a ∈ [Csr.id, .status, .ecause, .ecmd, .mulcfg, .mula, .muln, .tabcfg, .tabseed].map csrAddr at hmem
    obtain ⟨r, -, hr⟩ := List.mem_map.mp hmem
    rw [csrAt_eq_some_iff.mpr hr.symm] at hnone
    cases hnone
  · intro hmem
    refine Option.eq_none_iff_forall_ne_some.mpr fun r hr => hmem ?_
    rw [csrAt_eq_some_iff.mp hr]
    cases r <;> decide

theorem exec_csrr_unimplemented {csr : CsrAddr} (h : csrAt csr = none) (opa : Data) (s : State) :
    exec (.csrr csr opa) s = raise .badCsr (wordC 0x01#8 csr) s := by
  simp only [exec, execCsrr, h, Instr.word]

theorem exec_csrw_unimplemented {csr : CsrAddr} (h : csrAt csr = none) (opa : Data) (s : State) :
    exec (.csrw csr opa) s = raise .badCsr (wordC 0x02#8 csr) s := by
  simp only [exec, execCsrw, h, Instr.word]

theorem exec_csrw_readOnly {r : Csr} (hr : csrReadOnly r = true) (opa : Data) (s : State) :
    exec (.csrw (csrAddr r) opa) s = raise .badCsr (wordC 0x02#8 (csrAddr r)) s := by
  have haddr : csrAt (csrAddr r) = some r := csrAt_eq_some_iff.mpr rfl
  simp [exec, execCsrw, haddr, hr, Instr.word]

/-- `CSRW` of a writable register that is not locked, with an illegal value (R201, R219). -/
theorem exec_csrw_illegal {r : Csr} (hw : csrReadOnly r = false) {s : State}
    (hl : (csrLockable r && s.tabrdy) = false) {v : Data} (hv : csrLegal r v = false) :
    exec (.csrw (csrAddr r) v) s = raise .badValue (wordC 0x02#8 (csrAddr r)) s := by
  rw [exec_csrw hw, if_neg (by simp [hl]), if_neg (by simp [hv])]

/-- `legal_MULCFG` (R30) in the register's bits. -/
theorem legalMulcfg_iff_bits (v : Data) :
    legalMulcfg v = true ↔ v.extractLsb' 12 52 = 0#52 ∧ v.getLsbD 7 = false ∧
      (v.extractLsb' 0 7).toNat ≤ (if v.getLsbD 8 then 64 else 32) := by
  simp only [legalMulcfg, mulcfgP, mulcfgWidth, Width.ofW64_bits, Bool.and_eq_true, beq_iff_eq, Bool.not_eq_true',
    decide_eq_true_eq, and_assoc]

/-- `legal_TABCFG` (R34) in the register's bits. -/
theorem legalTabcfg_iff_bits (v : Data) :
    legalTabcfg v = true ↔ v.extractLsb' 9 55 = 0#55 ∧ v.extractLsb' 4 4 = 0#4 ∧
      (v.extractLsb' 0 4).toNat ∈ [1, 4, 8] := by
  simp only [legalTabcfg, tabcfgCols, Bool.and_eq_true, Bool.or_eq_true, beq_iff_eq, and_assoc, or_assoc,
    List.mem_cons, List.not_mem_nil, or_false]

/-- Settles O17: by the register that the address names, where each check of the rule is the model's or is vacuous. -/
theorem csrwFollowsItsChecks : Obligations.CsrwFollowsItsChecks := by
  intro csr opa s
  cases hcsr : csrAt csr with
  | none => rw [exec_csrw_unimplemented hcsr, if_pos (csrAt_eq_none_iff.mp hcsr), wordC]
  | some r =>
    obtain rfl := csrAt_eq_some_iff.mp hcsr
    cases r with
    | id | status | ecause | ecmd => exact exec_csrw_readOnly rfl opa s
    | mula | muln => exact exec_csrw_accepted rfl rfl rfl
    | mulcfg =>
      simp only [← legalMulcfg_iff_bits]
      cases hlegal : legalMulcfg opa with
      | true =>
        rw [exec_csrw_accepted (r := .mulcfg) rfl rfl hlegal]
        simp [csrAddr, respond_eq, State.writeCsr]
      | false =>
        rw [exec_csrw_illegal (r := .mulcfg) rfl rfl hlegal]
        simp [csrAddr, wordC]
    | tabcfg =>
      simp only [← legalTabcfg_iff_bits]
      cases hrdy : s.tabrdy with
      | true =>
        rw [exec_csrw_locked rfl rfl hrdy]
        simp [csrAddr, wordC]
      | false =>
        cases hlegal : legalTabcfg opa with
        | true =>
          rw [exec_csrw_accepted (r := .tabcfg) rfl hrdy hlegal]
          simp [csrAddr, respond_eq, State.writeCsr]
        | false =>
          rw [exec_csrw_illegal (r := .tabcfg) rfl hrdy hlegal]
          simp [csrAddr, wordC]
    | tabseed =>
      cases hrdy : s.tabrdy with
      | true =>
        rw [exec_csrw_locked rfl rfl hrdy]
        simp [csrAddr, wordC]
      | false =>
        rw [exec_csrw_accepted (r := .tabseed) rfl hrdy rfl]
        simp [csrAddr, respond_eq, State.writeCsr]

/-- Settles O16: by the register that the address names. -/
theorem csrrReadsRegister : Obligations.CsrrReadsRegister := by
  intro csr opa s
  cases hcsr : csrAt csr with
  | none =>
    have hout := csrAt_eq_none_iff.mp hcsr
    simp only [List.mem_cons, List.not_mem_nil, or_false, not_or] at hout
    simp only [exec_csrr_unimplemented hcsr, hout, if_false, wordC]
  | some r =>
    obtain rfl := csrAt_eq_some_iff.mp hcsr
    rw [exec_csrr, respond_eq]
    cases r <;> rfl

/-- Settles O18: each is the accepted write of one register, `TABCFG` and `TABSEED` unlocked as `TABRDY` is 0. -/
theorem csrwWritesNamedRegister : Obligations.CsrwWritesNamedRegister :=
  fun _ _ => ⟨exec_csrw_accepted (r := .mula) rfl rfl rfl, exec_csrw_accepted (r := .muln) rfl rfl rfl,
    fun hlegal => exec_csrw_accepted (r := .mulcfg) rfl rfl hlegal,
    fun hrdy hlegal => exec_csrw_accepted (r := .tabcfg) rfl hrdy hlegal,
    fun hrdy => exec_csrw_accepted (r := .tabseed) rfl hrdy rfl⟩

end Sys2Proof.Machine
end

section
/-! `CLRERR` and the error record (45_system.md R203). -/

namespace Sys2Proof.Machine

theorem exec_clrerr (opa : Data) (s : State) : exec (.clrerr opa) s = respond 0#64 s.clearRecord := rfl

theorem State.setErr_self (s : State) : s.setErr s.err = s :=
  congrArg s.setStatus (assignBit_self (by decide))

/-- Clearing an empty record changes nothing. -/
theorem State.clearRecord_of_clear {s : State} (herr : s.err = false) (hcause : s.ecause = 0#64)
    (hcmd : s.ecmd = 0#64) : s.clearRecord = s :=
  calc s.clearRecord
      = ((s.setErr s.err).setEcause s.ecause).setEcmd s.ecmd := by rw [herr, hcause, hcmd, State.clearRecord]
    _ = s := by rw [State.setErr_self]; rfl

/-- Settles O19: `CLRERR` is the clearing of the record, which has its own frame. -/
theorem clrerrClearsRecord : Obligations.ClrerrClearsRecord := by
  intro opa s
  refine ⟨_, exec_clrerr opa s, rfl, s.clearRecord_err, rfl, rfl, s.clearRecord_tabrdy, s.clearRecord_reserved,
    .refl s, fun _ _ => rfl, .refl s, fun herr hcause hcmd => ?_⟩
  rw [State.clearRecord_of_clear herr hcause hcmd]

end Sys2Proof.Machine
end

section
/-! Error entry and the error record (60_exceptions.md R224): what `raise` changes, who changes the record, and that
the recorded cause fits the recorded word (R217). -/

namespace Sys2Proof.Machine

theorem SameRecord.refl (s : State) : SameRecord s s := ⟨rfl, rfl, rfl⟩

/-- A recorded error is not overwritten by a later one. -/
theorem State.recordError_sameRecord {s : State} (h : s.err = true) (e : Status) (w : CmdWord) :
    SameRecord s (s.recordError e w) := by
  rw [s.recordError_of_err h]
  exact .refl s

theorem State.recordError_ecause_of_clear {s : State} (h : s.err = false) (e : Status) (w : CmdWord) :
    (s.recordError e w).ecause = (statusCode e).setWidth 64 := by
  rw [s.recordError_of_clear h]
  rfl

theorem State.recordError_ecmd_of_clear {s : State} (h : s.err = false) (e : Status) (w : CmdWord) :
    (s.recordError e w).ecmd = w.setWidth 64 := by
  rw [s.recordError_of_clear h]
  rfl

/-- Settles O20: by the laws of the error record; the response touches none of the fields. -/
theorem errorEntryRecordsFirstError : Obligations.ErrorEntryRecordsFirstError := by
  intro e w s
  refine ⟨_, raise_eq s e w, (answered_addResponse_iff (s.recordError_responses e w)).mpr rfl, fun hclear => ?_,
    fun herr => s.recordError_sameRecord herr e w, s.recordError_tabrdy e w, s.recordError_reserved e w,
    by simp [SameConfig], s.recordError_cell e w, by simp [SameEnvironment]⟩
  exact ⟨s.recordError_err e w, s.recordError_ecause_of_clear hclear e w, s.recordError_ecmd_of_clear hclear e w⟩

/-- Settles O9: it is the waiting case of `step`. -/
theorem blockWaitsWithoutInput : Obligations.BlockWaitsWithoutInput :=
  fun _ => step_wait

/-- Of the accepted instructions only `CLRERR` changes the record (R225, R226). -/
theorem Effect.sameRecord_or_clrerr {i : Instr} {s u : State} (heff : Effect s i u) :
    SameRecord s u ∨ ∃ o, i = .clrerr o ∧ u = s.clearRecord := by
  cases heff with
  | csrr | mulh | fmix32 | fmix64 | tabh | tabrd | tabw | tabrand => exact .inl (.refl s)
  | csrw csr opa r => exact .inl ⟨s.writeCsr_err r opa, s.writeCsr_ecause r opa, s.writeCsr_ecmd r opa⟩
  | clrerr opa => exact .inr ⟨opa, rfl, rfl⟩
  | tabbegin | tabcommit => exact .inl (s.setTabrdy_sameRecord _)

/-- The code of `ILLEGAL_CMD` is that of no other status (R216). -/
theorem statusCode_eq_illegalCmd_iff (e : Status) :
    (statusCode e).setWidth 64 = (statusCode .illegalCmd).setWidth 64 ↔ e = .illegalCmd := by
  cases e with
  | ok | illegalCmd | badCsr | badValue | tabNotReady | tabLocked | badIndex => decide

theorem RecordFitsWord.of_sameRecord {s t : State} (h : RecordFitsWord s) (hsame : SameRecord s t) :
    RecordFitsWord t := by
  obtain ⟨herr, hecause, hecmd⟩ := hsame
  rw [RecordFitsWord, herr, hecause, hecmd]
  exact h

theorem RecordFitsWord.of_clear {s : State} (h : s.err = false) : RecordFitsWord s :=
  fun herr => absurd (h.symm.trans herr) (by decide)

theorem State.afterReset_err (s : State) : s.afterReset.err = false := by
  simp [State.err]

/-- Error entry keeps the record fitting, when `ILLEGAL_CMD` is raised exactly for a word that is no command. -/
theorem RecordFitsWord.recordError {s : State} (h : RecordFitsWord s) {e : Status} {w : CmdWord}
    (hfits : e = .illegalCmd ↔ matchingRows w = []) : RecordFitsWord (s.recordError e w) := by
  cases herr : s.err with
  | true => exact h.of_sameRecord (s.recordError_sameRecord herr e w)
  | false =>
    intro _
    rwa [s.recordError_ecause_of_clear herr, s.recordError_ecmd_of_clear herr, setWidth_32_setWidth_64,
      statusCode_eq_illegalCmd_iff]

theorem RecordFitsWord.setInputs {s : State} (h : RecordFitsWord s) (l : List Input) :
    RecordFitsWord (s.setInputs l) :=
  h.of_sameRecord (.refl s)

theorem RecordFitsWord.addResponse {s : State} (h : RecordFitsWord s) (r : Response) :
    RecordFitsWord (s.addResponse r) :=
  h.of_sameRecord (.refl s)

/-- An instruction's own word is a command, and no instruction is answered `ILLEGAL_CMD`. -/
theorem exec_recordFitsWord {i : Instr} {s t : State} (h : RecordFitsWord s) (hexec : exec i s = .next t) :
    RecordFitsWord t := by
  obtain ⟨e, -, hill, rfl⟩ | ⟨u, d, heff, rfl⟩ := exec_next_cases hexec
  · exact (h.recordError (iff_of_false hill (matchingRows_word_ne_nil i))).addResponse _
  · obtain hsame | ⟨o, -, rfl⟩ := heff.sameRecord_or_clrerr
    · exact (h.of_sameRecord hsame).addResponse _
    · exact (RecordFitsWord.of_clear s.clearRecord_err).addResponse _

/-- Settles O15: an undecoded word matches no row, a decoded one does, and each is recorded with its own cause. -/
theorem stepKeepsRecordFittingWord : Obligations.StepKeepsRecordFittingWord := by
  intro s t h hstep
  obtain ⟨-, rfl⟩ | ⟨rest, -, rfl⟩ | ⟨c, rest, e, -, hdec, rfl⟩ | ⟨c, rest, i, -, -, hexec⟩ := step_next_cases hstep
  · exact h
  · exact .of_clear (State.afterReset_err _)
  · exact ((h.setInputs rest).recordError (iff_of_true rfl (matchingRows_eq_nil_of_decode_error hdec))).addResponse _
  · exact exec_recordFitsWord (h.setInputs rest) hexec

end Sys2Proof.Machine
end

section
/-! A command that is refused takes error entry with its own word (60_exceptions.md R217, R224). -/

namespace Sys2Proof.Machine

/-- A decoded command is never answered `ILLEGAL_CMD` (R217). -/
theorem exec_status_ne_illegalCmd {i : Instr} {s t : State} {st : Status} {d : Data} (hexec : exec i s = .next t)
    (hans : Answered s t st d) : st ≠ .illegalCmd := by
  obtain ⟨e, -, hill, rfl⟩ | ⟨u, d', heff, rfl⟩ := exec_next_cases hexec
  · cases (answered_addResponse_iff (s.recordError_responses _ _)).mp hans
    exact hill
  · cases (answered_addResponse_iff heff.responses).mp hans
    decide

/-- Settles O7: the decoder refuses exactly the words that match no row, and `exec` never answers `ILLEGAL_CMD`. -/
theorem illegalWordIsRefused : Obligations.IllegalWordIsRefused := by
  refine ⟨rfl, fun s c rest hin => ?_⟩
  cases hdec : decode c with
  | error e =>
    have hnil := matchingRows_eq_nil_of_decode_error hdec
    obtain ⟨t, hraise, hans, -, -, hrdy, -, hconfig, hcells, hinputs, hresets, hdraws⟩ :=
      errorEntryRecordsFirstError .illegalCmd c.word (s.setInputs rest)
    exact ⟨t, _, _, (step_illegal hin hdec).trans hraise, hans, iff_of_true rfl hnil,
      fun _ => ⟨rfl, hconfig, hcells, hrdy, hinputs, hresets, hdraws⟩⟩
  | ok i =>
    have hmatch : matchingRows c.word ≠ [] := matchingRows_eq_of_decode hdec ▸ matchingRows_word_ne_nil i
    obtain ⟨t, hexec⟩ := exec_next i (s.setInputs rest)
    obtain ⟨st, d, hans⟩ := exec_answered hexec
    exact ⟨t, st, d, (step_command hin hdec).trans hexec, hans,
      iff_of_false (exec_status_ne_illegalCmd hexec hans) hmatch, fun hnil => absurd hnil hmatch⟩

/-- A step that answers a command otherwise than `OK` is error entry with the answered status and the command's word. -/
theorem step_refused {s t : State} {c : Command} {rest : List Input} {st : Status} {d : Data}
    (hin : s.inputs = .command c :: rest) (hstep : step s = .next t) (hans : Answered s t st d) (hst : st ≠ .ok) :
    d = 0#64 ∧ raise st c.word (s.setInputs rest) = .next t := by
  change Answered (s.setInputs rest) t st d at hans
  cases hdec : decode c with
  | error e =>
    rw [step_illegal hin hdec] at hstep
    cases hstep
    cases (answered_addResponse_iff (State.recordError_responses _ _ _)).mp hans
    exact ⟨rfl, rfl⟩
  | ok i =>
    rw [step_command hin hdec] at hstep
    obtain ⟨e, -, -, rfl⟩ | ⟨u, d', heff, rfl⟩ := exec_next_cases hstep
    · cases (answered_addResponse_iff (State.recordError_responses _ _ _)).mp hans
      rw [(decoded_of_decode hdec).word_eq]
      exact ⟨rfl, rfl⟩
    · cases (answered_addResponse_iff heff.responses).mp hans
      exact absurd rfl hst

/-- Settles O21: a refused command is error entry, whose frame is O20. -/
theorem refusedCommandChangesOnlyRecord : Obligations.RefusedCommandChangesOnlyRecord := by
  intro s t c rest st d hin hstep hans hst
  obtain ⟨hd, hentry⟩ := step_refused hin hstep hans hst
  obtain ⟨t', hraise, -, hclear, hset, hrdy, hreserved, hconfig, hcells, hinputs, hresets, hdraws⟩ :=
    errorEntryRecordsFirstError st c.word (s.setInputs rest)
  cases hentry.symm.trans hraise
  exact ⟨fun hcode => statusCode_ne_zero hst (by rw [hcode]; rfl), hd, hset, hclear, hrdy, hreserved, hconfig, hcells,
    hinputs, hresets, hdraws⟩

end Sys2Proof.Machine
end

section
/-! Which commands are refused, with which status, and what the accepted ones answer (60_exceptions.md R218 to R223,
R236): with `Effect`, the whole of what an instruction can do. -/

namespace Sys2Proof.Machine

/-- A refused instruction with the status it is answered with, and the conditions it is refused on. -/
inductive Refused (s : State) : Instr → Status → Prop
  | csrrUnimplemented {csr : CsrAddr} (opa : Data) (hcsr : csrAt csr = none) : Refused s (.csrr csr opa) .badCsr
  | csrwUnimplemented {csr : CsrAddr} (opa : Data) (hcsr : csrAt csr = none) : Refused s (.csrw csr opa) .badCsr
  | csrwReadOnly {r : Csr} (opa : Data) (hr : csrReadOnly r = true) : Refused s (.csrw (csrAddr r) opa) .badCsr
  | csrwLocked {r : Csr} (opa : Data) (hw : csrReadOnly r = false) (hl : csrLockable r = true)
      (hrdy : s.tabrdy = true) : Refused s (.csrw (csrAddr r) opa) .tabLocked
  | csrwIllegal {r : Csr} {opa : Data} (hw : csrReadOnly r = false) (hl : (csrLockable r && s.tabrdy) = false)
      (hv : csrLegal r opa = false) : Refused s (.csrw (csrAddr r) opa) .badValue
  | tabhBuilding (opa : Data) (hrdy : s.tabrdy = false) : Refused s (.tabh opa) .tabNotReady
  | tabwReady (col : Col) (row : Row) (opa : Data) (hrdy : s.tabrdy = true) : Refused s (.tabw col row opa) .tabLocked
  | tabwOutside {col : Col} (row : Row) (opa : Data) (hrdy : s.tabrdy = false)
      (hcol : tabcfgCols s.tabcfg ≤ col.toNat) : Refused s (.tabw col row opa) .badIndex
  | tabrdBuilding (col : Col) (row : Row) (opa : Data) (hrdy : s.tabrdy = false) :
      Refused s (.tabrd col row opa) .tabNotReady
  | tabrdOutside {col : Col} (row : Row) (opa : Data) (hrdy : s.tabrdy = true)
      (hcol : tabcfgCols s.tabcfg ≤ col.toNat) : Refused s (.tabrd col row opa) .badIndex
  | tabrandReady (opa : Data) (hrdy : s.tabrdy = true) : Refused s (.tabrand opa) .tabLocked
  | tabcommitReady (opa : Data) (hrdy : s.tabrdy = true) : Refused s (.tabcommit opa) .tabLocked

theorem Refused.exec_eq {s : State} {i : Instr} {e : Status} (h : Refused s i e) : exec i s = raise e i.word s := by
  cases h with
  | csrrUnimplemented opa hcsr => exact exec_csrr_unimplemented hcsr opa s
  | csrwUnimplemented opa hcsr => exact exec_csrw_unimplemented hcsr opa s
  | csrwReadOnly opa hr => exact exec_csrw_readOnly hr opa s
  | csrwLocked opa hw hl hrdy => exact exec_csrw_locked hw hl hrdy opa
  | csrwIllegal hw hl hv => exact exec_csrw_illegal hw hl hv
  | tabhBuilding opa hrdy => exact exec_tabh_building opa hrdy
  | tabwReady col row opa hrdy => exact exec_tabw_ready opa col row hrdy
  | tabwOutside row opa hrdy hcol => exact exec_tabw_outside opa _ row hrdy hcol
  | tabrdBuilding col row opa hrdy => exact exec_tabrd_building opa col row hrdy
  | tabrdOutside row opa hrdy hcol => exact exec_tabrd_outside opa _ row hrdy hcol
  | tabrandReady opa hrdy => exact exec_tabrand_ready opa hrdy
  | tabcommitReady opa hrdy => exact exec_tabcommit_ready opa hrdy

/-- The data an accepted instruction is answered with (R88). -/
def acceptedData (s : State) : Instr → Data
  | .csrr csr _ => (csrAt csr).elim 0#64 s.readCsr
  | .mulh opa => mulHash s.mulcfg s.mula s.muln opa
  | .fmix32 opa => (fmix32 (opa.setWidth 32)).setWidth 64
  | .fmix64 opa => fmix64 opa
  | .tabh opa => tabHash s opa
  | .tabrd col row _ => s.memRead (tabcfgWidth s.tabcfg) col.toNat row.toNat
  | .csrw _ _ | .clrerr _ | .tabbegin _ | .tabw _ _ _ | .tabrand _ | .tabcommit _ => 0#64

theorem Effect.exec_eq {s u : State} {i : Instr} (h : Effect s i u) : exec i s = respond (acceptedData s i) u := by
  cases h with
  | csrr csr opa r hr =>
    obtain rfl := csrAt_eq_some_iff.mp hr
    rw [exec_csrr, acceptedData, hr, Option.elim_some]
  | csrw csr opa r hr hw hl hv =>
    obtain rfl := csrAt_eq_some_iff.mp hr
    exact exec_csrw_accepted hw hl hv
  | clrerr | mulh | fmix32 | fmix64 | tabbegin => rfl
  | tabh opa hrdy => exact exec_tabh_accepted hrdy opa
  | tabw col row opa hrdy hcol => exact exec_tabw_accepted hrdy hcol row opa
  | tabrd col row opa hrdy hcol => exact exec_tabrd_accepted hrdy hcol row opa
  | tabrand opa hrdy => exact exec_tabrand_accepted opa hrdy
  | tabcommit opa hrdy => exact exec_tabcommit_accepted hrdy opa

/-- Every instruction is refused or accepted: the checks in the order of R223. -/
theorem refused_or_effect (s : State) (i : Instr) : (∃ e, Refused s i e) ∨ ∃ u, Effect s i u := by
  cases i with
  | csrr csr opa =>
    cases hcsr : csrAt csr with
    | none => exact .inl ⟨_, .csrrUnimplemented opa hcsr⟩
    | some r => exact .inr ⟨_, .csrr csr opa r hcsr⟩
  | csrw csr opa =>
    cases hcsr : csrAt csr with
    | none => exact .inl ⟨_, .csrwUnimplemented opa hcsr⟩
    | some r =>
      obtain rfl := csrAt_eq_some_iff.mp hcsr
      cases hw : csrReadOnly r with
      | true => exact .inl ⟨_, .csrwReadOnly opa hw⟩
      | false =>
        cases hl : csrLockable r && s.tabrdy with
        | true =>
          obtain ⟨hlock, hrdy⟩ := Bool.and_eq_true_iff.mp hl
          exact .inl ⟨_, .csrwLocked opa hw hlock hrdy⟩
        | false =>
          cases hv : csrLegal r opa with
          | true => exact .inr ⟨_, .csrw _ opa r hcsr hw hl hv⟩
          | false => exact .inl ⟨_, .csrwIllegal hw hl hv⟩
  | clrerr opa => exact .inr ⟨_, .clrerr opa⟩
  | mulh opa => exact .inr ⟨_, .mulh opa⟩
  | fmix32 opa => exact .inr ⟨_, .fmix32 opa⟩
  | fmix64 opa => exact .inr ⟨_, .fmix64 opa⟩
  | tabbegin opa => exact .inr ⟨_, .tabbegin opa⟩
  | tabh opa =>
    cases hrdy : s.tabrdy with
    | true => exact .inr ⟨_, .tabh opa hrdy⟩
    | false => exact .inl ⟨_, .tabhBuilding opa hrdy⟩
  | tabw col row opa =>
    cases hrdy : s.tabrdy with
    | true => exact .inl ⟨_, .tabwReady col row opa hrdy⟩
    | false =>
      obtain hcol | hcol := Nat.lt_or_ge col.toNat (tabcfgCols s.tabcfg)
      · exact .inr ⟨_, .tabw col row opa hrdy hcol⟩
      · exact .inl ⟨_, .tabwOutside row opa hrdy hcol⟩
  | tabrd col row opa =>
    cases hrdy : s.tabrdy with
    | true =>
      obtain hcol | hcol := Nat.lt_or_ge col.toNat (tabcfgCols s.tabcfg)
      · exact .inr ⟨_, .tabrd col row opa hrdy hcol⟩
      · exact .inl ⟨_, .tabrdOutside row opa hrdy hcol⟩
    | false => exact .inl ⟨_, .tabrdBuilding col row opa hrdy⟩
  | tabrand opa =>
    cases hrdy : s.tabrdy with
    | true => exact .inl ⟨_, .tabrandReady opa hrdy⟩
    | false => exact .inr ⟨_, .tabrand opa hrdy⟩
  | tabcommit opa =>
    cases hrdy : s.tabrdy with
    | true => exact .inl ⟨_, .tabcommitReady opa hrdy⟩
    | false => exact .inr ⟨_, .tabcommit opa hrdy⟩

theorem Refused.answered {s : State} {i : Instr} {e : Status} (h : Refused s i e) :
    ∃ t, exec i s = .next t ∧ Answered s t e 0#64 :=
  ⟨_, h.exec_eq, (answered_addResponse_iff (s.recordError_responses _ _)).mpr rfl⟩

theorem Effect.answered {s u : State} {i : Instr} (h : Effect s i u) :
    ∃ t, exec i s = .next t ∧ Answered s t .ok (acceptedData s i) :=
  ⟨_, h.exec_eq, (answered_addResponse_iff h.responses).mpr rfl⟩

/-- An instruction has one answer. -/
theorem exec_answer_unique {s t : State} {i : Instr} {st st' : Status} {d d' : Data} (hexec : exec i s = .next t)
    (hans : Answered s t st d) (h' : ∃ t', exec i s = .next t' ∧ Answered s t' st' d') : st = st' ∧ d = d' := by
  obtain ⟨t', hexec', hans'⟩ := h'
  cases hexec.symm.trans hexec'
  simpa using List.append_cancel_left (hans.symm.trans hans')

/-- An instruction is answered with an error exactly when it is refused with that error. -/
theorem status_eq_iff_refused {s t : State} {i : Instr} {st e : Status} {d : Data} (hexec : exec i s = .next t)
    (hans : Answered s t st d) (he : e ≠ .ok) : st = e ↔ Refused s i e := by
  constructor
  · rintro rfl
    obtain ⟨e, href⟩ | ⟨u, heff⟩ := refused_or_effect s i
    · obtain ⟨rfl, -⟩ := exec_answer_unique hexec hans href.answered
      exact href
    · exact absurd (exec_answer_unique hexec hans heff.answered).1 he
  · exact fun href => (exec_answer_unique hexec hans href.answered).1

section
variable {s : State} {i : Instr}

/-- The addresses that `CSRW` does not write: the unimplemented ones and those of the read-only registers (R218). -/
theorem refused_csrw_badCsr_iff {csr : CsrAddr} {opa : Data} :
    Refused s (.csrw csr opa) .badCsr ↔ csr ∉ [0x10#8, 0x11#8, 0x12#8, 0x20#8, 0x21#8] := by
  constructor
  · intro href
    cases href with
    | csrwUnimplemented _ hcsr => exact fun hmem => csrAt_eq_none_iff.mp hcsr (List.mem_of_mem_drop (i := 4) hmem)
    | @csrwReadOnly r _ hr =>
      cases r with
      | id | status | ecause | ecmd => decide
      | mulcfg | mula | muln | tabcfg | tabseed => cases hr
  · intro hmem
    cases hcsr : csrAt csr with
    | none => exact .csrwUnimplemented opa hcsr
    | some r =>
      obtain rfl := csrAt_eq_some_iff.mp hcsr
      refine .csrwReadOnly opa ?_
      cases r with
      | id | status | ecause | ecmd => rfl
      | mulcfg | mula | muln | tabcfg | tabseed => exact absurd (by decide) hmem

theorem refused_badCsr_iff : Refused s i .badCsr ↔
    (∃ csr o, i = .csrr csr o ∧
      csr ∉ [0x00#8, 0x01#8, 0x02#8, 0x03#8, 0x10#8, 0x11#8, 0x12#8, 0x20#8, 0x21#8]) ∨
    (∃ csr o, i = .csrw csr o ∧ csr ∉ [0x10#8, 0x11#8, 0x12#8, 0x20#8, 0x21#8]) := by
  constructor
  · intro href
    have href' := href
    cases href with
    | csrrUnimplemented opa hcsr => exact .inl ⟨_, opa, rfl, csrAt_eq_none_iff.mp hcsr⟩
    | csrwUnimplemented opa | csrwReadOnly opa => exact .inr ⟨_, opa, rfl, refused_csrw_badCsr_iff.mp href'⟩
  · rintro (⟨csr, o, rfl, hcsr⟩ | ⟨csr, o, rfl, hcsr⟩)
    · exact .csrrUnimplemented o (csrAt_eq_none_iff.mpr hcsr)
    · exact refused_csrw_badCsr_iff.mpr hcsr

theorem refused_badValue_iff : Refused s i .badValue ↔
    (∃ v, i = .csrw 0x10#8 v ∧ legalMulcfg v = false) ∨
    (∃ v, i = .csrw 0x20#8 v ∧ s.tabrdy = false ∧ legalTabcfg v = false) := by
  constructor
  · intro href
    cases href with
    | @csrwIllegal r opa hw hl hv =>
      cases r with
      | mulcfg => exact .inl ⟨opa, rfl, hv⟩
      | tabcfg => exact .inr ⟨opa, rfl, hl, hv⟩
      | id | status | ecause | ecmd => cases hw
      | mula | muln | tabseed => cases hv
  · rintro (⟨v, rfl, hv⟩ | ⟨v, rfl, hrdy, hv⟩)
    · exact .csrwIllegal (r := .mulcfg) rfl rfl hv
    · exact .csrwIllegal (r := .tabcfg) rfl hrdy hv

theorem refused_tabNotReady_iff : Refused s i .tabNotReady ↔
    s.tabrdy = false ∧ ((∃ o, i = .tabh o) ∨ ∃ col row o, i = .tabrd col row o) := by
  constructor
  · intro href
    cases href with
    | tabhBuilding opa hrdy => exact ⟨hrdy, .inl ⟨opa, rfl⟩⟩
    | tabrdBuilding col row opa hrdy => exact ⟨hrdy, .inr ⟨col, row, opa, rfl⟩⟩
  · rintro ⟨hrdy, ⟨o, rfl⟩ | ⟨col, row, o, rfl⟩⟩
    · exact .tabhBuilding o hrdy
    · exact .tabrdBuilding col row o hrdy

theorem refused_tabLocked_iff : Refused s i .tabLocked ↔ s.tabrdy = true ∧
    ((∃ col row o, i = .tabw col row o) ∨ (∃ o, i = .tabrand o) ∨ (∃ o, i = .tabcommit o) ∨
      (∃ o, i = .csrw 0x20#8 o) ∨ ∃ o, i = .csrw 0x21#8 o) := by
  constructor
  · intro href
    cases href with
    | tabwReady col row opa hrdy => exact ⟨hrdy, .inl ⟨col, row, opa, rfl⟩⟩
    | tabrandReady opa hrdy => exact ⟨hrdy, .inr (.inl ⟨opa, rfl⟩)⟩
    | tabcommitReady opa hrdy => exact ⟨hrdy, .inr (.inr (.inl ⟨opa, rfl⟩))⟩
    | @csrwLocked r opa hw hl hrdy =>
      cases r with
      | tabcfg => exact ⟨hrdy, .inr (.inr (.inr (.inl ⟨opa, rfl⟩)))⟩
      | tabseed => exact ⟨hrdy, .inr (.inr (.inr (.inr ⟨opa, rfl⟩)))⟩
      | id | status | ecause | ecmd | mulcfg | mula | muln => cases hl
  · rintro ⟨hrdy, ⟨col, row, o, rfl⟩ | ⟨o, rfl⟩ | ⟨o, rfl⟩ | ⟨o, rfl⟩ | ⟨o, rfl⟩⟩
    · exact .tabwReady col row o hrdy
    · exact .tabrandReady o hrdy
    · exact .tabcommitReady o hrdy
    · exact .csrwLocked (r := .tabcfg) o rfl rfl hrdy
    · exact .csrwLocked (r := .tabseed) o rfl rfl hrdy

theorem refused_badIndex_iff : Refused s i .badIndex ↔
    ∃ col row o, tabcfgCols s.tabcfg ≤ col.toNat ∧
      (s.tabrdy = false ∧ i = .tabw col row o ∨ s.tabrdy = true ∧ i = .tabrd col row o) := by
  constructor
  · intro href
    cases href with
    | tabwOutside row opa hrdy hcol => exact ⟨_, row, opa, hcol, .inl ⟨hrdy, rfl⟩⟩
    | tabrdOutside row opa hrdy hcol => exact ⟨_, row, opa, hcol, .inr ⟨hrdy, rfl⟩⟩
  · rintro ⟨col, row, o, hcol, ⟨hrdy, rfl⟩ | ⟨hrdy, rfl⟩⟩
    · exact .tabwOutside row o hrdy hcol
    · exact .tabrdOutside row o hrdy hcol

end

/-- Settles O23: a status is answered exactly when the instruction is refused with it, rule by rule. -/
theorem statusTellsItsCause : Obligations.StatusTellsItsCause := by
  refine ⟨rfl, fun i s t st d hexec hans => ?_⟩
  have hrefused {e : Status} (he : e ≠ .ok) : st = e ↔ Refused s i e := status_eq_iff_refused hexec hans he
  exact ⟨exec_status_ne_illegalCmd hexec hans, (hrefused (by decide)).trans refused_badCsr_iff,
    (hrefused (by decide)).trans refused_badValue_iff, (hrefused (by decide)).trans refused_tabNotReady_iff,
    (hrefused (by decide)).trans refused_tabLocked_iff, (hrefused (by decide)).trans refused_badIndex_iff⟩

/-- Settles O24: the five have an effect in every state, and `TABH` is refused by the phase alone. -/
theorem neverRefusedCommands : Obligations.NeverRefusedCommands := by
  refine fun opa s => ⟨fun i hi => ?_, ?_⟩
  · have haccepted : ∃ u, Effect s i u := by
      obtain rfl | rfl | rfl | rfl | rfl := hi
      · exact ⟨_, .fmix32 opa⟩
      · exact ⟨_, .fmix64 opa⟩
      · exact ⟨_, .mulh opa⟩
      · exact ⟨_, .tabbegin opa⟩
      · exact ⟨_, .clrerr opa⟩
    obtain ⟨u, heff⟩ := haccepted
    obtain ⟨t, hexec, hans⟩ := heff.answered
    exact ⟨t, _, hexec, hans⟩
  · cases hrdy : s.tabrdy with
    | true =>
      obtain ⟨t, hexec, hans⟩ := (Effect.tabh opa hrdy).answered
      exact ⟨t, _, _, hexec, hans, .inl rfl⟩
    | false =>
      obtain ⟨t, hexec, hans⟩ := (Refused.tabhBuilding opa hrdy).answered
      exact ⟨t, _, _, hexec, hans, .inr rfl⟩

/-- Settles O25: each refusal has no premise on the check that comes later. -/
theorem checksFollowPriority : Obligations.ChecksFollowPriority :=
  fun s col row opa => ⟨fun hrdy => ⟨exec_csrw_locked (r := .tabcfg) rfl rfl hrdy opa,
      exec_csrw_locked (r := .tabseed) rfl rfl hrdy opa, exec_csrw_readOnly (r := .status) rfl opa s,
      exec_tabw_ready opa col row hrdy⟩,
    fun hrdy => exec_tabrd_building opa col row hrdy⟩

end Sys2Proof.Machine
end

section
/-! A recorded error stays and blocks nothing (60_exceptions.md R225): an instruction sees of the record only what
`CSRR` reads of it. -/

namespace Sys2Proof.Machine

/-- With an error recorded only `CLRERR` changes the record. -/
theorem exec_sameRecord {i : Instr} {s t : State} (herr : s.err = true) (hi : ∀ o, i ≠ .clrerr o)
    (hexec : exec i s = .next t) : SameRecord s t := by
  obtain ⟨e, -, -, rfl⟩ | ⟨u, d, heff, rfl⟩ := exec_next_cases hexec
  · exact s.recordError_sameRecord herr e i.word
  · obtain hsame | ⟨o, hclrerr, -⟩ := heff.sameRecord_or_clrerr
    · exact hsame
    · exact absurd hclrerr (hi o)

theorem step_sameRecord {s t : State} (herr : s.err = true) (hreset : ∀ rest, s.inputs ≠ .reset :: rest)
    (hclrerr : ∀ c rest o, s.inputs = .command c :: rest → decode c ≠ .ok (.clrerr o)) (hstep : step s = .next t) :
    SameRecord s t := by
  obtain ⟨-, rfl⟩ | ⟨rest, hin, -⟩ | ⟨c, rest, e, -, -, rfl⟩ | ⟨c, rest, i, hin, hdec, hexec⟩ := step_next_cases hstep
  · exact .refl _
  · exact absurd hin (hreset rest)
  · exact (s.setInputs rest).recordError_sameRecord herr .illegalCmd c.word
  · refine exec_sameRecord (s := s.setInputs rest) herr (fun o ho => ?_) hexec
    exact hclrerr c rest o hin (ho ▸ hdec)

/-! Two states that differ in the record alone: clearing it makes them equal. -/

/-- The last value given to a bit is what it holds. -/
theorem assignBit_assignBit (v : Data) {i : Nat} (hi : i < 64) (b c : Bool) :
    assignBit (assignBit v i b) i c = assignBit v i c := by
  refine BitVec.eq_of_getLsbD_eq fun j _ => ?_
  simp only [assignBit_getLsbD _ _ _ _ hi]
  split_ifs <;> rfl

theorem State.clearRecord_recordError (s : State) (e : Status) (w : CmdWord) :
    (s.recordError e w).clearRecord = s.clearRecord := by
  cases herr : s.err with
  | true => rw [s.recordError_of_err herr]
  | false =>
    rw [s.recordError_of_clear herr]
    exact congrArg s.clearRecord.setStatus (assignBit_assignBit s.status (by decide) true false)

theorem State.clearRecord_writeCsr (s : State) (r : Csr) (v : Data) :
    (s.writeCsr r v).clearRecord = s.clearRecord.writeCsr r v := by
  cases r <;> rfl

theorem State.clearRecord_memWrite (s : State) (w : Width) (c r : Nat) (v : Data) :
    (s.memWrite w c r v).clearRecord = s.clearRecord.memWrite w c r v := rfl

theorem State.clearRecord_fillColumns (s : State) (w : Width) (n : Nat) :
    (s.fillColumns w n).clearRecord = s.clearRecord.fillColumns w n := rfl

/-- No accepted instruction but the `CSRR` of a record register answers from the record. -/
theorem acceptedData_clearRecord {i : Instr} (hi : ∀ csr ∈ [0x01#8, 0x02#8, 0x03#8], ∀ o, i ≠ .csrr csr o)
    (s : State) : acceptedData s.clearRecord i = acceptedData s i := by
  cases i with
  | csrr csr opa =>
    cases hcsr : csrAt csr with
    | none => simp only [acceptedData, hcsr, Option.elim_none]
    | some r =>
      obtain rfl := csrAt_eq_some_iff.mp hcsr
      simp only [acceptedData, hcsr, Option.elim_some]
      cases r with
      | status | ecause | ecmd => exact absurd rfl (hi _ (by decide) opa)
      | id | mulcfg | mula | muln | tabcfg | tabseed => rfl
  | tabh opa =>
    have hinst : SameInstance s s.clearRecord := ⟨rfl, rfl, fun _ _ => rfl⟩
    exact tabHash_congr hinst opa
  | mulh | fmix32 | fmix64 | tabrd | csrw | clrerr | tabbegin | tabw | tabrand | tabcommit => rfl

section
variable {s s' : State} (h : s'.clearRecord = s.clearRecord)
include h

theorem same_of_clearRecord_eq : s'.tabrdy = s.tabrdy ∧ SameConfig s s' ∧ SameCells s s' :=
  ⟨by simpa using congrArg State.tabrdy h,
    ⟨(congrArg State.mulcfg h :), (congrArg State.mula h :), (congrArg State.muln h :), (congrArg State.tabcfg h :),
      (congrArg State.tabseed h :)⟩,
    fun c r => (congrArg (State.cell · c r) h :)⟩

theorem acceptedData_congr {i : Instr} (hi : ∀ csr ∈ [0x01#8, 0x02#8, 0x03#8], ∀ o, i ≠ .csrr csr o) :
    acceptedData s' i = acceptedData s i := by
  rw [← acceptedData_clearRecord hi, h, acceptedData_clearRecord hi]

/-- No check reads the record. -/
theorem Refused.congr {i : Instr} {e : Status} (href : Refused s i e) : Refused s' i e := by
  obtain ⟨hready, ⟨-, -, -, hcfg, -⟩, -⟩ := same_of_clearRecord_eq h
  cases href with
  | csrrUnimplemented opa hcsr => exact .csrrUnimplemented opa hcsr
  | csrwUnimplemented opa hcsr => exact .csrwUnimplemented opa hcsr
  | csrwReadOnly opa hr => exact .csrwReadOnly opa hr
  | csrwLocked opa hw hl hrdy => exact .csrwLocked opa hw hl (hready.trans hrdy)
  | csrwIllegal hw hl hv => exact .csrwIllegal hw (hready ▸ hl) hv
  | tabhBuilding opa hrdy => exact .tabhBuilding opa (hready.trans hrdy)
  | tabwReady col row opa hrdy => exact .tabwReady col row opa (hready.trans hrdy)
  | tabwOutside row opa hrdy hcol => exact .tabwOutside row opa (hready.trans hrdy) (hcfg ▸ hcol)
  | tabrdBuilding col row opa hrdy => exact .tabrdBuilding col row opa (hready.trans hrdy)
  | tabrdOutside row opa hrdy hcol => exact .tabrdOutside row opa (hready.trans hrdy) (hcfg ▸ hcol)
  | tabrandReady opa hrdy => exact .tabrandReady opa (hready.trans hrdy)
  | tabcommitReady opa hrdy => exact .tabcommitReady opa (hready.trans hrdy)

/-- Nor does an effect, and its two results differ in the record alone. -/
theorem Effect.congr {i : Instr} {u : State} (heff : Effect s i u) :
    ∃ u', Effect s' i u' ∧ u'.clearRecord = u.clearRecord := by
  obtain ⟨hready, ⟨-, -, -, hcfg, -⟩, -⟩ := same_of_clearRecord_eq h
  cases heff with
  | csrr csr opa r hr => exact ⟨s', .csrr csr opa r hr, h⟩
  | csrw csr opa r hr hw hl hv =>
    exact ⟨_, .csrw csr opa r hr hw (hready ▸ hl) hv, by rw [s'.clearRecord_writeCsr, h, s.clearRecord_writeCsr]⟩
  | clrerr opa => exact ⟨_, .clrerr opa, congrArg State.clearRecord h⟩
  | mulh opa => exact ⟨s', .mulh opa, h⟩
  | fmix32 opa => exact ⟨s', .fmix32 opa, h⟩
  | fmix64 opa => exact ⟨s', .fmix64 opa, h⟩
  | tabh opa hrdy => exact ⟨s', .tabh opa (hready.trans hrdy), h⟩
  | tabbegin opa => exact ⟨_, .tabbegin opa, by rw [s'.clearRecord_setTabrdy, h, s.clearRecord_setTabrdy]⟩
  | tabw col row opa hrdy hcol =>
    exact ⟨_, .tabw col row opa (hready.trans hrdy) (hcfg ▸ hcol),
      by rw [s'.clearRecord_memWrite, h, hcfg, s.clearRecord_memWrite]⟩
  | tabrd col row opa hrdy hcol => exact ⟨s', .tabrd col row opa (hready.trans hrdy) (hcfg ▸ hcol), h⟩
  | tabrand opa hrdy =>
    exact ⟨_, .tabrand opa (hready.trans hrdy),
      by rw [s'.clearRecord_fillColumns, h, hcfg, s.clearRecord_fillColumns]⟩
  | tabcommit opa hrdy =>
    exact ⟨_, .tabcommit opa (hready.trans hrdy), by rw [s'.clearRecord_setTabrdy, h, s.clearRecord_setTabrdy]⟩

end

/-- Settles O22: neither checks nor effects read the record, and `CSRR` alone answers from it. -/
theorem recordStaysAndBlocksNothing : Obligations.RecordStaysAndBlocksNothing := by
  refine ⟨fun s t hstep herr hreset hclrerr => step_sameRecord herr hreset hclrerr hstep,
    fun i s t t' e w hexec hexec' => ?_⟩
  have h := s.clearRecord_recordError e w
  obtain ⟨e', href⟩ | ⟨u, heff⟩ := refused_or_effect s i
  · have href' := href.congr h
    rw [href.exec_eq, raise_eq] at hexec
    rw [href'.exec_eq, raise_eq] at hexec'
    cases hexec
    cases hexec'
    have hafter : ((s.recordError e w).recordError e' i.word).clearRecord = (s.recordError e' i.word).clearRecord := by
      rw [State.clearRecord_recordError, h, State.clearRecord_recordError]
    have hsame := same_of_clearRecord_eq hafter
    exact ⟨e', 0#64, 0#64, (answered_addResponse_iff (s.recordError_responses _ _)).mpr rfl,
      (answered_addResponse_iff (State.recordError_responses _ _ _)).mpr rfl, fun _ => rfl, hsame⟩
  · obtain ⟨u', heff', hafter⟩ := heff.congr h
    rw [heff.exec_eq, respond_eq] at hexec
    rw [heff'.exec_eq, respond_eq] at hexec'
    cases hexec
    cases hexec'
    have hsame := same_of_clearRecord_eq hafter
    exact ⟨.ok, _, _, (answered_addResponse_iff heff.responses).mpr rfl,
      (answered_addResponse_iff heff'.responses).mpr rfl, acceptedData_congr h, hsame⟩

end Sys2Proof.Machine
end

section
/-! The reset event (70_reset_and_hazards.md R240, R241, R243): the state it leaves, and the default instances in it. -/

namespace Sys2Proof.Machine

/-- No cell is written after a reset, so each holds its free value of the new reset (R42). -/
@[simp] theorem State.afterReset_cell (s : State) (c r : Nat) :
    s.afterReset.cell c r = Config.resetCell (s.resets + 1) (cellNumber c r) := rfl

theorem State.afterReset_tabrdy (s : State) : s.afterReset.tabrdy = false := by
  rw [State.tabrdy, s.afterReset_status]
  rfl

/-- The reset value of `MULCFG` selects 32 bits, the Fibonacci family and `P = W`: the hash is the whole product with
`A_FIB32`, whatever `MULA` and `MULN` hold (R113, R241). -/
theorem mulHash_default (mula muln k : Data) :
    mulHash 0x420#64 mula muln k = BitVec.ofNat 64 ((k.toNat % 2 ^ 32) * Config.aFib32.toNat % 2 ^ 32) := by
  have hwidth : mulcfgWidth 0x420#64 = .w32 := rfl
  have hfull : mulcfgP 0x420#64 = (mulcfgWidth 0x420#64).bits := rfl
  have hselect : (mulSelect 0x420#64 mula).toNat = Config.aFib32.toNat := mulSelect_toNat 0x420#64 mula
  calc mulHash 0x420#64 mula muln k
      = BitVec.ofNat 64 (mulHash 0x420#64 mula muln k).toNat := by rw [BitVec.ofNat_toNat, BitVec.setWidth_eq]
    _ = BitVec.ofNat 64 (mulProduct .w32 k (mulSelect 0x420#64 mula)) := by
      rw [mulHash_top_full rfl mula muln k hfull, hwidth]
    _ = BitVec.ofNat 64 ((k.toNat % 2 ^ 32) * Config.aFib32.toNat % 2 ^ 32) := by
      rw [mulProduct, Width.view_toNat, hselect, Width.bits]

/-- Settles O10: the reset event is `State.afterReset`, and every clause reads one field of it. -/
theorem resetEventRestoresRegisters : Obligations.ResetEventRestoresRegisters :=
  fun s rest hin => ⟨(s.setInputs rest).afterReset, step_reset hin, rfl, rfl, rfl, rfl, rfl, rfl, rfl, rfl,
    (s.setInputs rest).afterReset_cell, rfl, rfl, rfl⟩

/-- Settles O11: after the reset event `MULCFG` holds the default instance, and `TABRDY` is clear. -/
theorem resetLeavesDefaultInstances : Obligations.ResetLeavesDefaultInstances := by
  intro s rest k o hin
  have hrdy := (s.setInputs rest).afterReset_tabrdy
  refine ⟨(s.setInputs rest).afterReset, step_reset hin, exec_mulh_eq_iff.mpr (mulHash_default _ _ k),
    exec_tabh_building k hrdy, ?_⟩
  have hwidth : tabcfgWidth 0x004#64 = .w32 := rfl
  exact ⟨_, exec_tabcommit_accepted hrdy o, rfl, State.setTabrdy_tabrdy _ true, rfl, hwidth, rfl⟩

end Sys2Proof.Machine
end
